-- ==== Sys2Proof/Word.lean ====
section
/-! DEFINITION. The words of PPFB: a byte, a 16-bit coordinate, a 16-bit reference handle (00_scope.md R8, R10, 30_encoding.md R94, R97). -/

namespace Sys2Proof

/-- A byte, bits 7 to 0 (R10); also a colour, a character code or a command code (R96). -/
abbrev Byte := BitVec 8

/-- `COORD_BITS` of R8: the width of a coordinate, width, height or length operand. -/
abbrev coordBits : Nat := 16

/-- `COLOR_BITS` of R8. -/
abbrev colorBits : Nat := 8

/-- A coordinate, width, height or length operand: unsigned, `COORD_BITS` wide (R96). -/
abbrev Coord := BitVec coordBits

/-- A colour operand as it enters, `COLOR_BITS` wide; the mask to 4 bits is R83's. -/
abbrev Color := BitVec colorBits

/-- A reference: an opaque 16-bit handle the environment resolves (R97). -/
abbrev Ref := BitVec 16

/-- A request word of format `REQ` (R94). -/
abbrev ReqWord := BitVec 88

end Sys2Proof
end

