-- ==== Sys2Proof/Syntax.lean ====
section
/-! DEFINITION. The instructions: one constructor of `Instr` per row of spec/opcode_table.json, 26 requests of
format `REQ` (30_encoding.md R94, R95) and 26 controller commands of format `CMD` (R85, R92), in the table's order;
and the names of both (`Op`, `Cmd`). -/

namespace Sys2Proof

/-- The 26 request mnemonics (00_scope.md R14, 30_encoding.md R95). -/
inductive Op where
  | init | deinit | hwreset
  | send | colwin | rowwin
  | setpix | getpix | fill | flush
  | hline | vline | bmp4 | bmp8 | char | str
  | modenorm | modeinv | modeon | modeoff | sleep | wake | graydef | graytab | setcon | setbri
  deriving DecidableEq, Repr, Inhabited

/-- The 26 controller commands, the "closed enumeration of opcodes" (30_encoding.md R92). -/
inductive Cmd where
  | unlock | sleepOn | clock | funcsel | prechargeV | precharge2 | vcomh | enh1 | enh2 | mux
  | exitPartial | setCol | setRow | offset | startline | remap | sleepOff | grayDefault
  | contrast | brightness | writeRam | normal | invert | allOn | allOff | grayTable
  deriving DecidableEq, Repr, Inhabited

/-- One instruction per row of the opcode table. A request carries the operands of R95 in slot order, decoded as R96
says; a command carries the payload bytes its descriptor gives (R86, R92). -/
inductive Instr where
  | init (transport pins : Ref) (resX resY : Coord)
  | deinit
  | hwreset
  | send (code : Byte) (payload : Ref) (n : Coord)
  | colwin (xStart xStop : Coord)
  | rowwin (yStart yStop : Coord)
  | setpix (x y : Coord) (color : Color)
  | getpix (x y : Coord)
  | fill (color : Color)
  | flush
  | hline (x1 x2 y : Coord) (color : Color)
  | vline (y1 y2 x : Coord) (color : Color)
  | bmp4 (x y : Coord) (source : Ref) (w h : Coord)
  | bmp8 (x y : Coord) (source : Ref) (w h : Coord)
  | char (x y : Coord) (ch : Byte) (font : Ref)
  | str (x y : Coord) (string font : Ref)
  | modenorm
  | modeinv
  | modeon
  | modeoff
  | sleep
  | wake
  | graydef
  | graytab (table : Ref)
  | setcon (v : Byte)
  | setbri (v : Byte)
  | cmdUnlock (v : Byte)
  | cmdSleepOn
  | cmdClock (v : Byte)
  | cmdFuncsel (v : Byte)
  | cmdPrechargeV (v : Byte)
  | cmdPrecharge2 (v : Byte)
  | cmdVcomh (v : Byte)
  | cmdEnh1 (p : List Byte)
  | cmdEnh2 (p : List Byte)
  | cmdMux (v : Byte)
  | cmdExitPartial
  | cmdSetCol (start stop : Byte)
  | cmdSetRow (start stop : Byte)
  | cmdOffset (v : Byte)
  | cmdStartline (v : Byte)
  | cmdRemap (p : List Byte)
  | cmdSleepOff
  | cmdGrayDefault
  | cmdContrast (v : Byte)
  | cmdBrightness (v : Byte)
  | cmdWriteRam (p : List Byte)
  | cmdNormal
  | cmdInvert
  | cmdAllOn
  | cmdAllOff
  | cmdGrayTable (p : List Byte)
  deriving DecidableEq, Repr, Inhabited

end Sys2Proof
end

