-- ==== Sys2Proof/Machine/Types.lean ====
section
/-! DEFINITION. The plain data the machine is made of: lifecycle, pin levels, trace and wire events, outcomes of a
request, source objects, and the external controller's registers. -/

namespace Sys2Proof.Machine

/-- The lifecycle register `LIFE` (10_state.md R28). -/
inductive Life where
  | unconstructed | constructed | tornDown
  deriving DecidableEq, Repr, Inhabited

/-- The two levels of the `RST` line, the source's "assert" `A` and "release" `R` (41_reset_init.md R121). -/
inductive RstLevel where
  | a | r
  deriving DecidableEq, Repr, Inhabited

/-- The logical values of the `DC` line (10_state.md R32). -/
inductive DcLevel where
  | command | data
  deriving DecidableEq, Repr, Inhabited

/-- The logical values of the `CS` line (10_state.md R32). -/
inductive CsLevel where
  | deasserted | asserted
  deriving DecidableEq, Repr, Inhabited

/-- A line of the pin port with the level it is driven to: the arguments of `Pin(line, level)` (00_scope.md R12). -/
inductive PinDrive where
  | rst (level : RstLevel)
  | dc (level : DcLevel)
  | cs (level : CsLevel)
  deriving DecidableEq, Repr

/-- The three named delays of the reset pulse (41_reset_init.md R121, R122). -/
inductive DelayName where
  | hold1 | hold2 | settle
  deriving DecidableEq, Repr

/-- An event of the output trace (00_scope.md R13). -/
inductive Event where
  | tx (isData : Bool) (bytes : List Byte)
  | pin (drive : PinDrive)
  | delay (t : DelayName)
  | dircfg
  deriving DecidableEq, Repr

/-- What the pins and the bus show of an event, at the level below the trace (30_encoding.md R87). -/
inductive LineEvent where
  | pin (drive : PinDrive)
  | bytes (bs : List Byte)
  | delay (t : DelayName)
  | dircfg
  deriving DecidableEq, Repr

/-- One entry of the wire, for CTRL to act on (log 3). -/
inductive BusEvent where
  /-- A completed command: the recording of one `Send` call (40_command_channel.md R117). -/
  | command (code : Byte) (payload : List Byte)
  /-- A phase that failed, of a command with this code: the command phase when no payload stands here, else the payload
  phase of these bytes (60_exceptions.md R234). -/
  | brokenPhase (code : Byte) (payload : List Byte)
  /-- The reset pulse (70_reset_and_hazards.md R261). -/
  | resetPulse
  /-- The FLUSH that was on the wire ended at a failing phase (43_framebuffer.md R180). -/
  | brokenFlush
  /-- The init program that was on the wire ended at a failing entry (93_implementation_defined.md U2). -/
  | brokenProgram
  /-- The column window just sent came from an operand that wrapped (93_implementation_defined.md U6, log 35). -/
  | wrappedColumns
  /-- The row window just sent came from an operand that wrapped (93_implementation_defined.md U6, log 35). -/
  | wrappedRows
  deriving DecidableEq, Repr

/-- The two phases of a command (30_encoding.md R85). -/
inductive Phase where
  | command | payload
  deriving DecidableEq, Repr

/-- What a request can raise, with the value recorded (60_exceptions.md R230 to R240). -/
inductive Err where
  | allocationFailure
  | busAttachFailure
  | transportFailure (phase : Phase) (code : Byte)
  | coordOutOfRange (x y : Nat)
  | lifecycleViolation (op : Op)
  | sourceUnderrun (s : Ref) (i : Nat)
  | illegalRequest (op : Byte)
  | geometryRefused (resX resY : Coord)
  deriving DecidableEq, Repr

/-- What the request port returns: `Ok`, `Ok` with GETPIX's pixel or CHAR's advance, or an error (60_exceptions.md
R230, R243). -/
inductive Result where
  | ok
  | okPixel (p : BitVec 4)
  | okAdvance (w : Coord)
  | raised (e : Err)
  deriving DecidableEq, Repr

/-- The environment's answer to `Allocate` or `Attach` (60_exceptions.md R231). -/
inductive Answer where
  | ok | fail
  deriving DecidableEq, Repr

/-- The transport's answer to one phase: `Ok` or `Fail` (60_exceptions.md R231), or no answer ever
(93_implementation_defined.md U8). -/
inductive PhaseAnswer where
  | ok | fail | never
  deriving DecidableEq, Repr

/-- A glyph: "per-glyph width/height/bitmap pointer" (30_encoding.md R91). -/
structure Glyph where
  w : Coord
  h : Coord
  bmp : Ref
  deriving DecidableEq, Repr, Inhabited

/-- A font of format `GT` (30_encoding.md R91): first and last valid code, both inclusive, and the glyphs by code. -/
structure Font where
  first : Byte
  last : Byte
  glyphs : List (Byte × Glyph)
  deriving DecidableEq, Repr, Inhabited

/-- CTRL's display mode (10_state.md R34, 45_facade.md R210 to R213). -/
inductive DisplayMode where
  | normal | inverted | allOn | allOff
  deriving DecidableEq, Repr, Inhabited

/-- CTRL's grayscale ramp: the default one or a caller-supplied table (10_state.md R34, 45_facade.md R216, R217). -/
inductive GrayRamp where
  | default
  | table (entries : List Byte)
  deriving DecidableEq, Repr, Inhabited

/-- The controller registers of 10_state.md R33, R34 and R46, but for the window: the payload last written to each,
and the modes. No bit of a payload has a layout (R35), but for "low 4 bits used" of the brightness: this register holds the
whole byte sent all the same (log 38). -/
structure CtrlRegs where
  unlock : Byte
  clock : Byte
  funcsel : Byte
  prechargeV : Byte
  precharge2 : Byte
  vcomh : Byte
  enh1 : List Byte
  enh2 : List Byte
  mux : Byte
  offset : Byte
  startline : Byte
  remap : List Byte
  contrast : Byte
  brightness : Byte
  partialMode : Bool
  asleep : Bool
  mode : DisplayMode
  gray : GrayRamp
  deriving DecidableEq, Repr, Inhabited

/-- CTRL's active window: the bytes last received as payload of `SET_COL` and `SET_ROW` (20_memory.md R76). -/
structure Window where
  colStart : Byte
  colStop : Byte
  rowStart : Byte
  rowStop : Byte
  deriving DecidableEq, Repr, Inhabited

/-- Which parts of CTRL stand as they were after an event that leaves the others unknown (log 18). -/
structure Stands where
  regs : Bool
  columns : Bool
  rows : Bool
  deriving DecidableEq, Repr

/-- What the spec fixes of CTRL's write pointer: at the window's first column and row right after a column window and
then a row window (20_memory.md R72, R77); half way there after the column window alone; anywhere otherwise (R78). -/
inductive Pointer where
  | anywhere | freshColumn | atStart
  deriving DecidableEq, Repr, Inhabited

end Sys2Proof.Machine
end

