-- ==== Sys2Proof/Config.lean ====
section
/-! DEFINITION. What the spec leaves OPEN, as opaque constants (00_scope.md R8, 92_eei_decisions.md "Open parameters"),
and the free values. Parameters to which the spec gives a value stand in Sys2Proof/Machine/Params.lean. No proof can see
the value of a constant of this file. -/

namespace Sys2Proof.Config

/-! The payload constants of the init program, "opaque constants, not derived values" (41_reset_init.md R131, log 12). -/

opaque kUnlock : Byte
opaque kClock : Byte
opaque kFuncsel : Byte
opaque kPrechargeV : Byte
opaque kPrecharge2 : Byte
opaque kVcomh : Byte
/-- Byte `i` of `K_ENH_1`. -/
opaque kEnh1Byte (i : Nat) : Byte
/-- Byte `i` of `K_ENH_2`. -/
opaque kEnh2Byte (i : Nat) : Byte
/-- Byte `i` of `K_REMAP`. -/
opaque kRemapByte (i : Nat) : Byte
opaque kContrastDefault : Byte
opaque kBrightnessDefault : Byte

/-- The two pixel formats a glyph bitmap can have (44_blitter.md R197). -/
inductive GlyphFmt where
  | four | eight
  deriving DecidableEq, Repr, Inhabited

/-- `GLYPH_FMT`, OPEN, one of 4 or 8 (00_scope.md R8, log 11). -/
opaque glyphFmt : GlyphFmt

/-! Electrical levels and delays: OPEN, and no rule depends on them (41_reset_init.md R121, R122, log 25). -/

opaque rstLevelA : Bool
opaque rstLevelR : Bool
opaque dcLevelCommand : Bool
opaque dcLevelData : Bool
opaque csLevelAsserted : Bool
opaque csLevelDeasserted : Bool
opaque tHold1 : Nat
opaque tHold2 : Nat
opaque tSettle : Nat

/-! Free values. Each is applied to the counter `freeCount` of the state, so that every use is a fresh value. -/

/-- A geometry register outside Constructed, the fresh count and which register (10_state.md R22, log 9). -/
opaque freeCoord (n which : Nat) : Coord

/-- `BSZ` outside Constructed (10_state.md R22, log 9). -/
opaque freeBsz (n : Nat) : BitVec 32

/-- `SEQ_PC` after DEINIT: any of its values 0 to 25 (10_state.md R24, 70_reset_and_hazards.md R264, log 9). -/
opaque freeSeqPc (n : Nat) : Fin 26

/-- Controller registers in a state the spec does not describe (93_implementation_defined.md U2, log 17, 18). -/
opaque freeRegs (n : Nat) : Machine.CtrlRegs

/-- What the controller registers written before a sleep hold after it: "What survives the controller's sleep is not in the
source" (60_exceptions.md R257, 93_implementation_defined.md U17, log 32). -/
opaque freeWaking (n : Nat) : Machine.CtrlRegs

/-- An active window the spec does not describe (93_implementation_defined.md U2, log 18). -/
opaque freeWindow (n : Nat) : Machine.Window

/-- The stream behind a handle for which the state lists none (30_encoding.md R97, log 14). -/
opaque unlistedStream (r : Ref) : List Byte

/-- The font behind a handle for which the state lists none (30_encoding.md R97, log 14). -/
opaque unlistedFont (r : Ref) : Machine.Font

/-- `glyph(f, ch)` of a valid code that the font's table does not list, by the font and the code (30_encoding.md R91). That two
handles with equal tables share it is the model's choice (log 14). -/
opaque unlistedGlyph (f : Machine.Font) (ch : Byte) : Machine.Glyph

end Sys2Proof.Config
end

