-- ==== Sys2Proof/Machine/Params.lean ====
section
/-! DEFINITION. The parameters to which the spec gives a value, each in one place (00_scope.md R8, R9,
92_eei_decisions.md "Open parameters"); beside the opaque ones of Sys2Proof/Config.lean. -/

namespace Sys2Proof.Config

/-- `COL_OFFSET`, the "fixed hardware offset (+28)" (00_scope.md R9). -/
def colOffset : Nat := 28

/-- `WIN_MOD`, the modulus of every window coordinate (00_scope.md R9). -/
def winMod : Nat := 128

/-- The two readings of `28 + x mod 128` (42_window.md R162). -/
inductive ColwinReading where
  | a | b
  deriving DecidableEq, Repr

/-- `COLWIN_READING` (00_scope.md R8, 92_eei_decisions.md D8, log 28). -/
def colwinReading : ColwinReading := .a

/-- `OOB_POLICY`: `fault` is the only value the spec gives rules for (92_eei_decisions.md D5). -/
inductive OobPolicy where
  | fault
  deriving DecidableEq, Repr

/-- `OOB_POLICY` (00_scope.md R8). -/
def oobPolicy : OobPolicy := .fault

/-- `INIT_CLEAR_COLOR` (00_scope.md R8, 92_eei_decisions.md D13, log 28). -/
def initClearColor : Color := 0

/-- `NEWLINE` (00_scope.md R8, 92_eei_decisions.md D25, log 28). -/
def newline : Byte := 0x0A

/-- `LEN_ENH_1`, `LEN_ENH_2`, `LEN_REMAP` (00_scope.md R8, 92_eei_decisions.md D11, log 28). -/
def lenEnh1 : Nat := 2
def lenEnh2 : Nat := 2
def lenRemap : Nat := 2

/-- The number of entries of a caller-supplied ramp (45_facade.md R217). -/
def lenGrayTable : Nat := 16

/-- The largest `res_x` and `res_y` INIT accepts (00_scope.md R7, 41_reset_init.md R128). -/
def maxResX : Nat := 256
def maxResY : Nat := 128

/-- `K_ENH_1`, `K_ENH_2`, `K_REMAP`: `LEN_*` opaque bytes each (41_reset_init.md R131, 92_eei_decisions.md D11). -/
def kEnh1 : List Byte := (List.range' 0 lenEnh1).map kEnh1Byte
def kEnh2 : List Byte := (List.range' 0 lenEnh2).map kEnh2Byte
def kRemap : List Byte := (List.range' 0 lenRemap).map kRemapByte

/-- The request opcodes of 30_encoding.md R95. -/
def opcode : Op → Byte
  | .init => 0x01
  | .deinit => 0x02
  | .hwreset => 0x03
  | .send => 0x10
  | .colwin => 0x11
  | .rowwin => 0x12
  | .setpix => 0x20
  | .getpix => 0x21
  | .fill => 0x22
  | .flush => 0x23
  | .hline => 0x30
  | .vline => 0x31
  | .bmp4 => 0x32
  | .bmp8 => 0x33
  | .char => 0x34
  | .str => 0x35
  | .modenorm => 0x40
  | .modeinv => 0x41
  | .modeon => 0x42
  | .modeoff => 0x43
  | .sleep => 0x44
  | .wake => 0x45
  | .graydef => 0x46
  | .graytab => 0x47
  | .setcon => 0x48
  | .setbri => 0x49

/-- The command codes `CMD_*`, at the defaults of 30_encoding.md R92 (log 13). -/
def cmdCode : Cmd → Byte
  | .unlock => 0xFD
  | .sleepOn => 0xAE
  | .clock => 0xB3
  | .funcsel => 0xAB
  | .prechargeV => 0xBB
  | .precharge2 => 0xB6
  | .vcomh => 0xBE
  | .enh1 => 0xB4
  | .enh2 => 0xD1
  | .mux => 0xCA
  | .exitPartial => 0xA9
  | .setCol => 0x15
  | .setRow => 0x75
  | .offset => 0xA2
  | .startline => 0xA1
  | .remap => 0xA0
  | .sleepOff => 0xAF
  | .grayDefault => 0xB9
  | .contrast => 0xC1
  | .brightness => 0xC7
  | .writeRam => 0x5C
  | .normal => 0xA6
  | .invert => 0xA7
  | .allOn => 0xA5
  | .allOff => 0xA4
  | .grayTable => 0xB8

end Sys2Proof.Config
end

