-- ==== Sys2Proof/WellFormed.lean ====
section
/-! DEFINITION. When an instruction is well formed. Every request is: an operand slot admits every value (30_encoding.md
R96, R98). A command's payload has the length its descriptor gives (R86, R92). -/

namespace Sys2Proof

/-- The payload descriptors of 30_encoding.md R92 for the commands whose payload `Instr` keeps as a list: `LEN_ENH_1`,
`LEN_ENH_2` and `LEN_REMAP` bytes, 16 bytes for the ramp, and at least one byte for the memory write, whose length is
that of the buffer sent (R85: a payload has one byte or more). -/
def Instr.wellFormed : Instr → Bool
  | .cmdEnh1 p => p.length == Config.lenEnh1
  | .cmdEnh2 p => p.length == Config.lenEnh2
  | .cmdRemap p => p.length == Config.lenRemap
  | .cmdGrayTable p => p.length == Config.lenGrayTable
  | .cmdWriteRam p => p.length != 0
  | .init .. | .deinit | .hwreset | .send .. | .colwin .. | .rowwin .. | .setpix .. | .getpix .. | .fill ..
  | .flush | .hline .. | .vline .. | .bmp4 .. | .bmp8 .. | .char .. | .str .. | .modenorm | .modeinv | .modeon
  | .modeoff | .sleep | .wake | .graydef | .graytab .. | .setcon .. | .setbri .. | .cmdUnlock .. | .cmdSleepOn
  | .cmdClock .. | .cmdFuncsel .. | .cmdPrechargeV .. | .cmdPrecharge2 .. | .cmdVcomh .. | .cmdMux ..
  | .cmdExitPartial | .cmdSetCol .. | .cmdSetRow .. | .cmdOffset .. | .cmdStartline .. | .cmdSleepOff
  | .cmdGrayDefault | .cmdContrast .. | .cmdBrightness .. | .cmdNormal | .cmdInvert | .cmdAllOn | .cmdAllOff => true

end Sys2Proof
end

