-- ==== Sys2Proof/Decode.lean ====
section
/-! DEFINITION. Decoding, total on every request word and every command on the wire, rejecting by name; and the encoder
beside it (30_encoding.md R85, R86, R92, R94 to R98). -/

namespace Sys2Proof

/-- The two forms an instruction takes: a request word of format `REQ` (R94), or a command of format `CMD` with the
payload of its data phase (R85; an absent payload is the empty one, 40_command_channel.md R116). -/
inductive Encoded where
  | request (w : ReqWord)
  | command (code : Byte) (payload : List Byte)
  deriving DecidableEq, Repr

/-- Why a form is no instruction. -/
inductive Reject where
  /-- the `op` field is none of the 26 of R95 (R98) -/
  | illegalRequest (op : Byte)
  /-- the code is none of the 26 of R92 -/
  | unknownCommand (code : Byte)
  /-- the payload has not the length of the command's descriptor (R86, R92) -/
  | payloadLength (c : Cmd) (n : Nat)
  deriving DecidableEq, Repr

/-- The 26 request mnemonics, in the table's order. -/
def allOps : List Op :=
  [.init, .deinit, .hwreset, .send, .colwin, .rowwin, .setpix, .getpix, .fill, .flush, .hline, .vline, .bmp4, .bmp8,
   .char, .str, .modenorm, .modeinv, .modeon, .modeoff, .sleep, .wake, .graydef, .graytab, .setcon, .setbri]

/-- The 26 commands, in the table's order. -/
def allCmds : List Cmd :=
  [.unlock, .sleepOn, .clock, .funcsel, .prechargeV, .precharge2, .vcomh, .enh1, .enh2, .mux, .exitPartial, .setCol,
   .setRow, .offset, .startline, .remap, .sleepOff, .grayDefault, .contrast, .brightness, .writeRam, .normal, .invert,
   .allOn, .allOff, .grayTable]

/-- The request an `op` field names (R95). -/
def opOf (b : Byte) : Option Op := allOps.find? fun o => Config.opcode o == b

/-- The command a code byte names (R92). -/
def cmdOf (b : Byte) : Option Cmd := allCmds.find? fun c => Config.cmdCode c == b

/-! The fields of a request word (R94). -/

def fieldOp (w : ReqWord) : Byte := w.extractLsb' 0 8
def fieldA (w : ReqWord) : BitVec 16 := w.extractLsb' 8 16
def fieldB (w : ReqWord) : BitVec 16 := w.extractLsb' 24 16
def fieldC (w : ReqWord) : BitVec 16 := w.extractLsb' 40 16
def fieldD (w : ReqWord) : BitVec 16 := w.extractLsb' 56 16
def fieldE (w : ReqWord) : BitVec 16 := w.extractLsb' 72 16

/-- A colour, byte or character code is the slot's low 8 bits (R94, R96). -/
def lowByte (slot : BitVec 16) : Byte := slot.extractLsb' 0 8

/-- The operands of each request by slot (R95); slots a request does not use are ignored (R98). -/
def requestOf (w : ReqWord) : Op → Instr
  | .init => .init (fieldA w) (fieldB w) (fieldC w) (fieldD w)
  | .deinit => .deinit
  | .hwreset => .hwreset
  | .send => .send (lowByte (fieldA w)) (fieldB w) (fieldC w)
  | .colwin => .colwin (fieldA w) (fieldB w)
  | .rowwin => .rowwin (fieldA w) (fieldB w)
  | .setpix => .setpix (fieldA w) (fieldB w) (lowByte (fieldC w))
  | .getpix => .getpix (fieldA w) (fieldB w)
  | .fill => .fill (lowByte (fieldA w))
  | .flush => .flush
  | .hline => .hline (fieldA w) (fieldB w) (fieldC w) (lowByte (fieldD w))
  | .vline => .vline (fieldA w) (fieldB w) (fieldC w) (lowByte (fieldD w))
  | .bmp4 => .bmp4 (fieldA w) (fieldB w) (fieldC w) (fieldD w) (fieldE w)
  | .bmp8 => .bmp8 (fieldA w) (fieldB w) (fieldC w) (fieldD w) (fieldE w)
  | .char => .char (fieldA w) (fieldB w) (lowByte (fieldC w)) (fieldD w)
  | .str => .str (fieldA w) (fieldB w) (fieldC w) (fieldD w)
  | .modenorm => .modenorm
  | .modeinv => .modeinv
  | .modeon => .modeon
  | .modeoff => .modeoff
  | .sleep => .sleep
  | .wake => .wake
  | .graydef => .graydef
  | .graytab => .graytab (fieldA w)
  | .setcon => .setcon (lowByte (fieldA w))
  | .setbri => .setbri (lowByte (fieldA w))

/-- The request decoder: every `op` not in R95 is rejected by name (R98). -/
def decodeRequest (w : ReqWord) : Except Reject Instr :=
  match opOf (fieldOp w) with
  | some o => .ok (requestOf w o)
  | none => .error (.illegalRequest (fieldOp w))

/-! The payload shapes of the command descriptors (R92). -/

def noPayload (c : Cmd) (i : Instr) (p : List Byte) : Except Reject Instr :=
  match p with
  | [] => .ok i
  | _ => .error (.payloadLength c p.length)

def oneByte (c : Cmd) (f : Byte → Instr) (p : List Byte) : Except Reject Instr :=
  match p with
  | [v] => .ok (f v)
  | _ => .error (.payloadLength c p.length)

def twoBytes (c : Cmd) (f : Byte → Byte → Instr) (p : List Byte) : Except Reject Instr :=
  match p with
  | [u, v] => .ok (f u v)
  | _ => .error (.payloadLength c p.length)

/-- A payload kept as a list, accepted when the instruction it makes is well formed. -/
def listPayload (c : Cmd) (f : List Byte → Instr) (p : List Byte) : Except Reject Instr :=
  if (f p).wellFormed then .ok (f p) else .error (.payloadLength c p.length)

/-- The command a code and its payload make, by the descriptor of R92. -/
def commandOf (p : List Byte) : Cmd → Except Reject Instr
  | .unlock => oneByte .unlock .cmdUnlock p
  | .sleepOn => noPayload .sleepOn .cmdSleepOn p
  | .clock => oneByte .clock .cmdClock p
  | .funcsel => oneByte .funcsel .cmdFuncsel p
  | .prechargeV => oneByte .prechargeV .cmdPrechargeV p
  | .precharge2 => oneByte .precharge2 .cmdPrecharge2 p
  | .vcomh => oneByte .vcomh .cmdVcomh p
  | .enh1 => listPayload .enh1 .cmdEnh1 p
  | .enh2 => listPayload .enh2 .cmdEnh2 p
  | .mux => oneByte .mux .cmdMux p
  | .exitPartial => noPayload .exitPartial .cmdExitPartial p
  | .setCol => twoBytes .setCol .cmdSetCol p
  | .setRow => twoBytes .setRow .cmdSetRow p
  | .offset => oneByte .offset .cmdOffset p
  | .startline => oneByte .startline .cmdStartline p
  | .remap => listPayload .remap .cmdRemap p
  | .sleepOff => noPayload .sleepOff .cmdSleepOff p
  | .grayDefault => noPayload .grayDefault .cmdGrayDefault p
  | .contrast => oneByte .contrast .cmdContrast p
  | .brightness => oneByte .brightness .cmdBrightness p
  | .writeRam => listPayload .writeRam .cmdWriteRam p
  | .normal => noPayload .normal .cmdNormal p
  | .invert => noPayload .invert .cmdInvert p
  | .allOn => noPayload .allOn .cmdAllOn p
  | .allOff => noPayload .allOff .cmdAllOff p
  | .grayTable => listPayload .grayTable .cmdGrayTable p

/-- The command decoder, CTRL's: a code outside R92, or a payload that does not fit, is rejected by name. -/
def decodeCommand (code : Byte) (payload : List Byte) : Except Reject Instr :=
  match cmdOf code with
  | some c => commandOf payload c
  | none => .error (.unknownCommand code)

/-- The decoder of both forms. -/
def decode : Encoded → Except Reject Instr
  | .request w => decodeRequest w
  | .command code payload => decodeCommand code payload

/-! The encoder. -/

/-- A request word from its opcode and slots (R94). -/
def reqWord (o : Op) (a b c d e : BitVec 16) : ReqWord := e ++ d ++ c ++ b ++ a ++ Config.opcode o

/-- A byte operand in its slot, the ignored bits 15 to 8 zero (R94). -/
def byteSlot (v : Byte) : BitVec 16 := v.setWidth 16

/-- A command on the wire (R85). -/
def cmdForm (c : Cmd) (payload : List Byte) : Encoded := .command (Config.cmdCode c) payload

/-- The form of an instruction, unused slots zero. -/
def encode : Instr → Encoded
  | .init t p rx ry => .request (reqWord .init t p rx ry 0)
  | .deinit => .request (reqWord .deinit 0 0 0 0 0)
  | .hwreset => .request (reqWord .hwreset 0 0 0 0 0)
  | .send code p n => .request (reqWord .send (byteSlot code) p n 0 0)
  | .colwin a b => .request (reqWord .colwin a b 0 0 0)
  | .rowwin a b => .request (reqWord .rowwin a b 0 0 0)
  | .setpix x y c => .request (reqWord .setpix x y (byteSlot c) 0 0)
  | .getpix x y => .request (reqWord .getpix x y 0 0 0)
  | .fill c => .request (reqWord .fill (byteSlot c) 0 0 0 0)
  | .flush => .request (reqWord .flush 0 0 0 0 0)
  | .hline x1 x2 y c => .request (reqWord .hline x1 x2 y (byteSlot c) 0)
  | .vline y1 y2 x c => .request (reqWord .vline y1 y2 x (byteSlot c) 0)
  | .bmp4 x y s w h => .request (reqWord .bmp4 x y s w h)
  | .bmp8 x y s w h => .request (reqWord .bmp8 x y s w h)
  | .char x y ch f => .request (reqWord .char x y (byteSlot ch) f 0)
  | .str x y s f => .request (reqWord .str x y s f 0)
  | .modenorm => .request (reqWord .modenorm 0 0 0 0 0)
  | .modeinv => .request (reqWord .modeinv 0 0 0 0 0)
  | .modeon => .request (reqWord .modeon 0 0 0 0 0)
  | .modeoff => .request (reqWord .modeoff 0 0 0 0 0)
  | .sleep => .request (reqWord .sleep 0 0 0 0 0)
  | .wake => .request (reqWord .wake 0 0 0 0 0)
  | .graydef => .request (reqWord .graydef 0 0 0 0 0)
  | .graytab t => .request (reqWord .graytab t 0 0 0 0)
  | .setcon v => .request (reqWord .setcon (byteSlot v) 0 0 0 0)
  | .setbri v => .request (reqWord .setbri (byteSlot v) 0 0 0 0)
  | .cmdUnlock v => cmdForm .unlock [v]
  | .cmdSleepOn => cmdForm .sleepOn []
  | .cmdClock v => cmdForm .clock [v]
  | .cmdFuncsel v => cmdForm .funcsel [v]
  | .cmdPrechargeV v => cmdForm .prechargeV [v]
  | .cmdPrecharge2 v => cmdForm .precharge2 [v]
  | .cmdVcomh v => cmdForm .vcomh [v]
  | .cmdEnh1 p => cmdForm .enh1 p
  | .cmdEnh2 p => cmdForm .enh2 p
  | .cmdMux v => cmdForm .mux [v]
  | .cmdExitPartial => cmdForm .exitPartial []
  | .cmdSetCol a b => cmdForm .setCol [a, b]
  | .cmdSetRow a b => cmdForm .setRow [a, b]
  | .cmdOffset v => cmdForm .offset [v]
  | .cmdStartline v => cmdForm .startline [v]
  | .cmdRemap p => cmdForm .remap p
  | .cmdSleepOff => cmdForm .sleepOff []
  | .cmdGrayDefault => cmdForm .grayDefault []
  | .cmdContrast v => cmdForm .contrast [v]
  | .cmdBrightness v => cmdForm .brightness [v]
  | .cmdWriteRam p => cmdForm .writeRam p
  | .cmdNormal => cmdForm .normal []
  | .cmdInvert => cmdForm .invert []
  | .cmdAllOn => cmdForm .allOn []
  | .cmdAllOff => cmdForm .allOff []
  | .cmdGrayTable p => cmdForm .grayTable p

/-! The opcode table's numbering of words. -/

/-- How many payload bytes a command of the table has when the table gives it none: its descriptor's number, and for the
memory write, whose length is the sender's, the least a payload has (R85, R92). -/
def payloadLen : Cmd → Nat
  | .sleepOn | .exitPartial | .sleepOff | .grayDefault | .normal | .invert | .allOn | .allOff => 0
  | .unlock | .clock | .funcsel | .prechargeV | .precharge2 | .vcomh | .mux | .offset | .startline | .contrast
  | .brightness | .writeRam => 1
  | .setCol | .setRow => 2
  | .enh1 => Config.lenEnh1
  | .enh2 => Config.lenEnh2
  | .remap => Config.lenRemap
  | .grayTable => Config.lenGrayTable

/-- The form whose low `nbits` bits are `w` and whose other bits are zero: a row of 8 bits is a command code with a payload
of zeros, a row of 88 bits a request word (log 21). -/
def tableForm (nbits w : Nat) : Encoded :=
  if nbits ≤ 8 then
    match cmdOf (BitVec.ofNat 8 w) with
    | some c => .command (BitVec.ofNat 8 w) (List.replicate (payloadLen c) 0)
    | none => .request (BitVec.ofNat 88 w)
  else .request (BitVec.ofNat 88 w)

/-- The instruction the decoder reads from the bits `w` of a row of the opcode table. -/
def decodeTableWord (nbits w : Nat) : Option Instr := (decode (tableForm nbits w)).toOption

end Sys2Proof
end

