-- ==== Sys2Proof/Machine/State.lean ====
section
/-! DEFINITION. The machine's state as plain data, the reasons a step can stop, and the state after reset
(10_state.md R20 to R49, 70_reset_and_hazards.md R260, R264). -/

namespace Sys2Proof.Machine

/-- Why the machine stops. The errors and faults of 60_exceptions.md R230 are no reason to stop: they end a request
(`Err`), and the machine goes on. -/
inductive Fault where
  /-- Raised by a sending instruction when the transport gives no answer to a phase: "a transport that never answers is
  `stuck` and the request never completes" (93_implementation_defined.md U8). Safe: no next state is claimed. -/
  | transportSilent
  /-- Raised by an access to a byte of `FB` that does not exist: no buffer, or an index not below its size (10_state.md
  R39, 20_memory.md R65). No coherent state reaches it (43_framebuffer.md R171). Safe. -/
  | fbAbsent (index : Nat)
  deriving DecidableEq, Repr

/-- Why an instruction has no meaning in the model. -/
inductive Refusal where
  /-- Raised by `exec` for an instruction that has no meaning yet; no arm uses it. Safe. -/
  | notModelled (mnemonic : String)
  deriving DecidableEq, Repr

/-- A byte memory of a given size: the bytes 0 to `size - 1`, listed by rising address where they differ from what an
unlisted byte reads as (log 10). -/
structure Memory where
  size : Nat
  cells : List Host.Cell
  deriving DecidableEq, Repr

/-- The external display controller CTRL (20_memory.md R75 to R78, 10_state.md R33, R34, R41, R44, R46). -/
structure Ctrl where
  regs : CtrlRegs
  /-- the MODEL's: what the registers will hold when a sleeping CTRL wakes, as written for those configured in this sleep
  (70_reset_and_hazards.md R263, R273), free for the others (60_exceptions.md R257); read by the waking alone (log 32) -/
  onWaking : CtrlRegs
  window : Window
  /-- the MODEL's: the column window is one to which R77 must not be applied, set by an operand that wrapped
  (93_implementation_defined.md U6, log 35) or unknown (log 18) -/
  columnsBarred : Bool
  /-- the MODEL's: the same of the row window -/
  rowsBarred : Bool
  pointer : Pointer
  /-- `GRAM`: the bytes known to be stored, by rising address (`gramKey`, log 20). -/
  gram : List Host.Cell
  deriving DecidableEq, Repr

/-- What comes from outside PPFB (10_state.md R49, 60_exceptions.md R231). An answer list that has run out answers `Ok`
from then on (log 1). -/
structure Env where
  streams : List (Ref × List Byte)
  fonts : List (Ref × Font)
  allocate : List Answer
  attach : List Answer
  transmit : List PhaseAnswer
  deriving DecidableEq, Repr

/-- The state: PPFB's registers, framebuffer, trace and request port; the wire and CTRL; the environment's answers. -/
structure State where
  /-- `LIFE` (R28) -/
  life : Life
  /-- `RES_X` (R21) -/
  resX : Coord
  /-- `RES_Y` (R21) -/
  resY : Coord
  /-- `PW` (R21) -/
  pw : BitVec 16
  /-- `BSZ` (R21) -/
  bsz : BitVec 32
  /-- `BOUND` (R31) -/
  bound : Bool
  /-- `PINCFG` (R32) -/
  pincfg : Bool
  /-- `RST` (R32) -/
  rst : RstLevel
  /-- `DC` (R32) -/
  dc : DcLevel
  /-- `CS` (R32) -/
  cs : CsLevel
  /-- `SEQ_PC` (R24) -/
  seqPc : BitVec 5
  /-- `FAULT`, the first fault raised (R29) -/
  fault : Option Err
  /-- the result field of the request port (60_exceptions.md R240, R243) -/
  result : Result
  /-- `FB`, when it exists (R39) -/
  fb : Option Memory
  /-- the output trace (R43), oldest event first -/
  trace : List Event
  /-- the request port: the words the host has issued and PPFB has not taken (00_scope.md R13) -/
  port : List ReqWord
  /-- what CTRL has not executed yet (log 3) -/
  wire : List BusEvent
  /-- the external controller -/
  ctrl : Ctrl
  /-- the environment -/
  env : Env
  /-- the MODEL's counter of free values taken (log 31) -/
  freeCount : Nat
  deriving DecidableEq, Repr

/-- The controller's registers before anything is written to them: the spec gives no value (R264, log 6). -/
def CtrlRegs.reset : CtrlRegs where
  unlock := 0
  clock := 0
  funcsel := 0
  prechargeV := 0
  precharge2 := 0
  vcomh := 0
  enh1 := [0, 0]
  enh2 := [0, 0]
  mux := 0
  offset := 0
  startline := 0
  remap := [0, 0]
  contrast := 0
  brightness := 0
  partialMode := false
  asleep := false
  mode := .normal
  gray := .default

/-- The controller at reset (log 6, 32, 35). -/
def Ctrl.reset : Ctrl where
  regs := CtrlRegs.reset
  onWaking := CtrlRegs.reset
  window := ⟨0, 0, 0, 0⟩
  columnsBarred := false
  rowsBarred := false
  pointer := .anywhere
  gram := []

/-- The environment at reset: no object listed, no answer scripted (log 1, 14). -/
def Env.reset : Env := ⟨[], [], [], [], []⟩

/-- The state before the first INIT (10_state.md R47, 70_reset_and_hazards.md R260). The geometry registers, `SEQ_PC`, the
pins and the result field have no reset value in the spec (log 4, 5, 7). -/
def State.reset : State where
  life := .unconstructed
  resX := 0
  resY := 0
  pw := 0
  bsz := 0
  bound := false
  pincfg := false
  rst := .a
  dc := .command
  cs := .deasserted
  seqPc := 0
  fault := none
  result := .ok
  fb := none
  trace := []
  port := []
  wire := []
  ctrl := Ctrl.reset
  env := Env.reset
  freeCount := 0

end Sys2Proof.Machine
end

