-- ==== Sys2Proof/Machine/Flags.lean ====
section
/-! DEFINITION. PPFB has no condition codes (10_state.md R29). Its only status is the outcome code of the last request and
the sticky `FAULT` record: both are computed here (60_exceptions.md R230, R240). -/

namespace Sys2Proof.Machine

/-- The cause codes of 60_exceptions.md R240. -/
def Err.code : Err → Nat
  | .allocationFailure => 1
  | .busAttachFailure => 2
  | .transportFailure _ _ => 3
  | .coordOutOfRange _ _ => 4
  | .lifecycleViolation _ => 5
  | .sourceUnderrun _ _ => 6
  | .illegalRequest _ => 7
  | .geometryRefused _ _ => 8

/-- The outcome code of a request (60_exceptions.md R240). -/
def Result.code : Result → Nat
  | .ok => 0
  | .okPixel _ => 0
  | .okAdvance _ => 0
  | .raised e => e.code

/-- Whether an error is recorded in `FAULT`: the spec's five faults (R230), and a transport failure as R234 recommends
(log 8). -/
def Err.recorded : Err → Bool
  | .allocationFailure => false
  | .busAttachFailure => false
  | .transportFailure _ _ => true
  | .coordOutOfRange _ _ => true
  | .lifecycleViolation _ => true
  | .sourceUnderrun _ _ => true
  | .illegalRequest _ => true
  | .geometryRefused _ _ => true

/-- `FAULT` after an error: the first fault raised stays for good (10_state.md R29). -/
def faultAfter (old : Option Err) (e : Err) : Option Err :=
  match old with
  | some f => some f
  | none => if e.recorded then some e else none

end Sys2Proof.Machine
end

