-- ==== Sys2Proof/Machine/Operands.lean ====
section
/-! DEFINITION. The operand forms and data encodings: the packed pixel byte, window bytes, source streams and fonts
(30_encoding.md R80 to R91, R100 to R104, 20_memory.md R50 to R64). -/

namespace Sys2Proof.Machine

/-- The interval `[a, b)` in increasing order, empty when `b <= a` (00_scope.md R12). -/
def interval (a b : Nat) : List Nat := List.range' a (b - a)

/-! The packed pixel byte. -/

/-- `nib(c) = c & 0xF`: the mask of a colour to 4 bits (00_scope.md R11, 30_encoding.md R83). -/
def nib (c : Byte) : Byte := c &&& 0x0F

/-- The encoder: colour `c` written at a pixel of column `x` into byte `b` (30_encoding.md R81). -/
def put (b : Byte) (x : Nat) (c : Color) : Byte :=
  if x % 2 = 0 then (nib c <<< 4) ||| (b &&& 0x0F) else (b &&& 0xF0) ||| nib c

/-- The decoder: the pixel of column `x` in byte `b` (30_encoding.md R82). -/
def get (b : Byte) (x : Nat) : BitVec 4 :=
  if x % 2 = 0 then b.extractLsb' 4 4 else b.extractLsb' 0 4

/-- The fill byte, both nibbles the colour's low nibble; the shift is cut to 8 bits (30_encoding.md R84,
90_conflicts.md C6). -/
def fillByte (c : Color) : Byte := (c <<< 4) ||| (c &&& 0x0F)

/-- The byte index of pixel `(x, y)` in rows of `pw` bytes (20_memory.md R51, R63); exact in naturals (R100). -/
def pixelIndex (pw x y : Nat) : Nat := x / 2 + y * pw

/-! Window bytes. -/

/-- One byte of a column window (30_encoding.md R88), by the reading of 42_window.md R162. -/
def colByte (x : Nat) : Byte :=
  match Config.colwinReading with
  | .a => BitVec.ofNat 8 (Config.colOffset + x % Config.winMod)
  | .b => BitVec.ofNat 8 ((Config.colOffset + x) % Config.winMod)

/-- One byte of a row window, without offset (30_encoding.md R88). -/
def rowByte (y : Nat) : Byte := BitVec.ofNat 8 (y % Config.winMod)

/-! References (30_encoding.md R97): the objects the environment resolves a handle to. -/

/-- The byte stream of a handle. -/
def streamOf (env : Env) (r : Ref) : List Byte := (env.streams.lookup r).getD (Config.unlistedStream r)

/-- The font of a handle. -/
def fontOf (env : Env) (r : Ref) : Font := (env.fonts.lookup r).getD (Config.unlistedFont r)

/-- `glyph(f, ch)` for a code the font holds valid (30_encoding.md R91); a free glyph of this font and code where the table lists
none, the model's choice (log 14). -/
def glyphOf (f : Font) (ch : Byte) : Glyph := (f.glyphs.lookup ch).getD (Config.unlistedGlyph f ch)

/-- `f.first <= ch <= f.last` (30_encoding.md R91). -/
def validCode (f : Font) (ch : Byte) : Bool := decide (f.first ≤ ch) && decide (ch ≤ f.last)

/-- `SrcRead(s, i)`: byte `i` of stream `s`, or the fault `SourceUnderrun` (20_memory.md R61). -/
def srcRead (env : Env) (r : Ref) (i : Nat) : Except Err Byte :=
  match (streamOf env r)[i]? with
  | some b => .ok b
  | none => .error (.sourceUnderrun r i)

/-- `[ SrcRead(s, i) for i in is ]`, the first failing read raising (40_command_channel.md R110). -/
def gather (env : Env) (r : Ref) : List Nat → Except Err (List Byte)
  | [] => .ok []
  | i :: is =>
    match srcRead env r i with
    | .error e => .error e
    | .ok b =>
      match gather env r is with
      | .error e => .error e
      | .ok bs => .ok (b :: bs)

/-- Pixel `k` of a 4-bit source: nibble `k` of the stream, high nibble first, no row padding (30_encoding.md R89). -/
def color4 (env : Env) (r : Ref) (k : Nat) : Except Err Color :=
  match srcRead env r (k / 2) with
  | .ok b => .ok ((get b k).setWidth 8)
  | .error e => .error e

/-- Pixel `k` of an 8-bit source: the high nibble of byte `k` (30_encoding.md R90). -/
def color8 (env : Env) (r : Ref) (k : Nat) : Except Err Color :=
  match srcRead env r k with
  | .ok b => .ok ((b.extractLsb' 4 4).setWidth 8)
  | .error e => .error e

end Sys2Proof.Machine
end

