-- ==== Sys2Proof/Machine/Ops.lean ====
section
/-! DEFINITION. The named operations over memory, pins, transport and controller, and taking an error as one shared
operation (00_scope.md R12, 60_exceptions.md R243). -/

namespace Sys2Proof.Machine

/-! ## Running a request -/

/-- How a part of a request ends: completed with a value, raised an error in the state reached so far (60_exceptions.md
R243), or stopped the machine. -/
inductive Res (α : Type) where
  | done (a : α) (s : State)
  | raised (e : Err) (s : State)
  | stopped (f : Fault)
  deriving DecidableEq, Repr

/-- Sequencing: after an error "later statements of the request do not run" (00_scope.md R12). -/
def Res.andThen {α β : Type} (r : Res α) (k : α → State → Res β) : Res β :=
  match r with
  | .done a s => k a s
  | .raised e s => .raised e s
  | .stopped f => .stopped f

/-- The part of a request with an effect on the state it raises an error in. -/
def Res.onRaise {α : Type} (r : Res α) (k : State → State) : Res α :=
  match r with
  | .done a s => .done a s
  | .raised e s => .raised e (k s)
  | .stopped f => .stopped f

/-- The completed part answers `v` on the request port. -/
def Res.answer {α : Type} (r : Res α) (v : α → Result) : Res Result :=
  r.andThen fun a s => .done (v a) s

/-- `for a in as: f a`, in order (00_scope.md R12). -/
def forEach {α : Type} (f : α → State → Res Unit) : List α → State → Res Unit
  | [], s => .done () s
  | a :: as, s => (f a s).andThen fun _ t => forEach f as t

/-- TAKING AN ERROR (60_exceptions.md R243): there is no vector, no saved program counter and no mode switch; the state
is the one the request had reached, the outcome is returned on the request port and `FAULT` keeps its first record. -/
def takeError (e : Err) (s : State) : State :=
  { s with result := .raised e, fault := faultAfter s.fault e }

/-- The end of a request: its outcome returned, or its error taken. -/
def finish (r : Res Result) : Host.Outcome State Fault Refusal :=
  match r with
  | .done v s => .next { s with result := v }
  | .raised e s => .next (takeError e s)
  | .stopped f => .fault f

/-- A request that needs the Constructed state, its first check (60_exceptions.md R236, R250). -/
def request (op : Op) (body : State → Res Result) (s : State) : Host.Outcome State Fault Refusal :=
  if s.life = .constructed then finish (body s) else finish (.raised (.lifecycleViolation op) s)

/-! ## The framebuffer memory -/

/-- What an unlisted byte of `FB` reads as (log 10). -/
def unlistedByte : Byte := 0

/-- The byte the cells give address `a`. -/
def cellsRead (a : Nat) : List Host.Cell → Byte
  | [] => unlistedByte
  | (b, v) :: rest => if a = b then v else cellsRead a rest

/-- The cells with address `a` holding `v`, in canonical form. -/
def cellsWrite (a : Nat) (v : Byte) : List Host.Cell → List Host.Cell
  | [] => if v = unlistedByte then [] else [(a, v)]
  | (b, w) :: rest =>
    if a < b then (if v = unlistedByte then (b, w) :: rest else (a, v) :: (b, w) :: rest)
    else if a = b then (if v = unlistedByte then rest else (a, v) :: rest)
    else (b, w) :: cellsWrite a v rest

/-- The cells with the addresses below `n` all holding `v`, in canonical form. -/
def cellsFill (n : Nat) (v : Byte) (cells : List Host.Cell) : List Host.Cell :=
  (if v = unlistedByte then [] else (interval 0 n).map fun a => (a, v)) ++ cells.filter fun c => n ≤ c.1

/-- Addresses strictly rising from `lo` up. -/
def risingFrom (lo : Nat) : List Host.Cell → Bool
  | [] => true
  | (a, _) :: rest => decide (lo ≤ a) && risingFrom (a + 1) rest

/-- The canonical form of a memory: addresses strictly rising and below the size, no entry equal to what an unlisted byte
reads as. -/
def Memory.wf (m : Memory) : Bool :=
  risingFrom 0 m.cells && m.cells.all fun c => decide (c.1 < m.size) && decide (c.2 ≠ unlistedByte)

/-- `MemRead(FB, i, 1)`, for an address that exists. -/
def Memory.read (m : Memory) (i : Nat) : Option Byte := if i < m.size then some (cellsRead i m.cells) else none

/-- `MemWrite(FB, i, 1, v)`. -/
def Memory.write (m : Memory) (i : Nat) (v : Byte) : Memory := { m with cells := cellsWrite i v m.cells }

/-- Bytes 0 to `n - 1` all written with `v`. -/
def Memory.fill (m : Memory) (n : Nat) (v : Byte) : Memory := { m with cells := cellsFill n v m.cells }

/-- A buffer of `n` bytes as `Allocate` gives it; its content is unspecified and not observable (70_reset_and_hazards.md
R264, log 10). -/
def Memory.fresh (n : Nat) : Memory := ⟨n, []⟩

/-- `FB[i]`, when that byte exists. -/
def readFb (s : State) (i : Nat) : Option Byte := s.fb.bind fun m => m.read i

/-- `FB[i] <- v`. -/
def writeFb (s : State) (i : Nat) (v : Byte) : State := { s with fb := s.fb.map fun m => m.write i v }

/-- How many bytes of `FB` exist. -/
def fbSize (s : State) : Nat := (s.fb.map Memory.size).getD 0

/-- `FB[0 .. n-1]`, in index order. -/
def fbBytes (s : State) (n : Nat) : List Byte := (interval 0 n).map fun i => (readFb s i).getD unlistedByte

/-- Runs `k` when the bytes 0 to `n - 1` of `FB` exist (log 24). -/
def withFb {α : Type} (n : Nat) (s : State) (k : Res α) : Res α :=
  if n ≤ fbSize s then k else .stopped (.fbAbsent (fbSize s))

/-! ## Pixels -/

/-- `x < RES_X` and `y < RES_Y` (20_memory.md R55, R56). -/
def inRange (s : State) (x y : Nat) : Bool := decide (x < s.resX.toNat) && decide (y < s.resY.toNat)

/-- What `OOB_POLICY` does with an out-of-range pixel: the fault, `FB` unchanged (20_memory.md R56, R235). -/
def outOfRange {α : Type} (x y : Nat) (s : State) : Res α :=
  match Config.oobPolicy with
  | .fault => .raised (.coordOutOfRange x y) s

/-- The body of SETPIX (43_framebuffer.md R170): the primitive "every drawing operation funnels through". -/
def setPixel (x y : Nat) (color : Color) (s : State) : Res Unit :=
  if inRange s x y then
    match readFb s (pixelIndex s.pw.toNat x y) with
    | some b => .done () (writeFb s (pixelIndex s.pw.toNat x y) (put b x color))
    | none => .stopped (.fbAbsent (pixelIndex s.pw.toNat x y))
  else outOfRange x y s

/-- The body of GETPIX (43_framebuffer.md R173). -/
def getPixel (x y : Nat) (s : State) : Res (BitVec 4) :=
  if inRange s x y then
    match readFb s (pixelIndex s.pw.toNat x y) with
    | some b => .done (get b x) s
    | none => .stopped (.fbAbsent (pixelIndex s.pw.toNat x y))
  else outOfRange x y s

/-- The observation `Pix(x, y)` (43_framebuffer.md R174), where the byte exists. -/
def pix (s : State) (x y : Nat) : Option (BitVec 4) :=
  (readFb s (pixelIndex s.pw.toNat x y)).map fun b => get b x

/-- The body of FILL (43_framebuffer.md R176). -/
def fillFb (color : Color) (s : State) : Res Unit :=
  withFb s.bsz.toNat s (.done () { s with fb := s.fb.map fun m => m.fill s.bsz.toNat (fillByte color) })

/-! ## Pins and the transport -/

/-- The state with an event appended to the output trace. -/
def emit (e : Event) (s : State) : State := { s with trace := s.trace ++ [e] }

/-- The state with something for CTRL on the wire (log 3). -/
def toCtrl (b : BusEvent) (s : State) : State := { s with wire := s.wire ++ [b] }

/-- The level of `DC` during a phase (30_encoding.md R85). -/
def dcOf (isData : Bool) : DcLevel := if isData then .data else .command

/-- Which phase `is_data` tells (30_encoding.md R85). -/
def phaseOf (isData : Bool) : Phase := if isData then .payload else .command

/-- The pin-level expansion of an event (30_encoding.md R87). -/
def Event.expand : Event → List LineEvent
  | .tx isData bytes => [.pin (.dc (dcOf isData)), .pin (.cs .asserted), .bytes bytes, .pin (.cs .deasserted)]
  | .pin d => [.pin d]
  | .delay t => [.delay t]
  | .dircfg => [.dircfg]

/-- A phase as it leaves PPFB: one `TX` event, `DC` at the phase's level and `CS` deasserted by the closed bracket
(40_command_channel.md R112, R113), the environment's answer consumed. -/
def phaseSent (isData : Bool) (bytes : List Byte) (s : State) : State :=
  emit (.tx isData bytes)
    { s with dc := dcOf isData, cs := .deasserted, env := { s.env with transmit := s.env.transmit.tail } }

/-- What CTRL meets of a failed phase (60_exceptions.md R234). -/
def brokenEvent (isData : Bool) (bytes : List Byte) (code : Byte) : BusEvent :=
  .brokenPhase code (if isData then bytes else [])

/-- `Transmit(is_data, bytes)` in a `Send` of `code`, with the raise on `Fail` (40_command_channel.md R112). A transport
that never answers is stuck (93_implementation_defined.md U8, log 15). -/
def transmit (isData : Bool) (bytes : List Byte) (code : Byte) (s : State) : Res Unit :=
  match s.env.transmit.headD .ok with
  | .ok => .done () (phaseSent isData bytes s)
  | .fail =>
    .raised (.transportFailure (phaseOf isData) code) (toCtrl (brokenEvent isData bytes code) (phaseSent isData bytes s))
  | .never => .stopped .transportSilent

/-- The payload phase of a `Send`; an empty payload is an absent one (40_command_channel.md R116). -/
def sendPayload (code : Byte) (bs : List Byte) (s : State) : Res Unit :=
  match bs with
  | [] => .done () s
  | _ :: _ => transmit true bs code s

/-- The procedure `Send(code, bs)` (40_command_channel.md R112); a completed command is on the wire for CTRL (R117). -/
def sendBytes (code : Byte) (bs : List Byte) (s : State) : Res Unit :=
  (transmit false [code] code s).andThen fun _ s₁ =>
    (sendPayload code bs s₁).andThen fun _ s₂ => .done () (toCtrl (.command code bs) s₂)

/-- `Send(CMD_c, bs)`. -/
def sendCmd (c : Cmd) (bs : List Byte) (s : State) : Res Unit := sendBytes (Config.cmdCode c) bs s

/-- `Send(code, [ SrcRead(r, i) for i in [0, n) ])`, the payload gathered before anything is sent (60_exceptions.md R242). -/
def sendFrom (code : Byte) (r : Ref) (n : Nat) (s : State) : Res Unit :=
  match gather s.env r (interval 0 n) with
  | .ok bs => sendBytes code bs s
  | .error e => .raised e s

/-- Whether a window operand wraps (42_window.md R161, R163). -/
def wraps (start stop : Nat) : Bool := decide (Config.winMod ≤ start) || decide (Config.winMod ≤ stop)

/-- Leaves CTRL the mark that the window just sent came from an operand that wrapped. The bytes do not show it (42_window.md
R161), and 93_implementation_defined.md U6 bars R77 for such a window (log 35). -/
def markIf (wrapped : Bool) (mark : BusEvent) (s : State) : State := if wrapped then toCtrl mark s else s

/-- The body of COLWIN (42_window.md R160). -/
def sendColumns (start stop : Nat) (s : State) : Res Unit :=
  (sendCmd .setCol [colByte start, colByte stop] s).andThen fun _ t =>
    .done () (markIf (wraps start stop) .wrappedColumns t)

/-- The body of ROWWIN (42_window.md R163). -/
def sendRows (start stop : Nat) (s : State) : Res Unit :=
  (sendCmd .setRow [rowByte start, rowByte stop] s).andThen fun _ t =>
    .done () (markIf (wraps start stop) .wrappedRows t)

/-- The full column window (42_window.md R166). -/
def sendFullColumns (s : State) : Res Unit := sendColumns 0 (s.pw.toNat - 1) s

/-- The full row window (42_window.md R166). -/
def sendFullRows (s : State) : Res Unit := sendRows 0 (s.resY.toNat - 1) s

/-- `Send(CMD_WRITE_RAM, FB[0 .. BSZ-1])` (43_framebuffer.md R179). -/
def sendFb (s : State) : Res Unit := withFb s.bsz.toNat s (sendCmd .writeRam (fbBytes s s.bsz.toNat) s)

/-- The three `Send` calls of FLUSH (43_framebuffer.md R179). -/
def flushSteps (s : State) : Res Unit :=
  (sendFullColumns s).andThen fun _ s₁ => (sendFullRows s₁).andThen fun _ s₂ => sendFb s₂

/-- The body of FLUSH (43_framebuffer.md R179, R180). -/
def flushFb (s : State) : Res Unit := (flushSteps s).onRaise (toCtrl .brokenFlush)

/-- The events of the reset pulse, in order: `Pin(RST, A); Delay(T_HOLD_1); Pin(RST, R); Delay(T_HOLD_2); Pin(RST, A);
Delay(T_SETTLE)` (41_reset_init.md R121). -/
def resetEvents : List Event :=
  [.pin (.rst .a), .delay .hold1, .pin (.rst .r), .delay .hold2, .pin (.rst .a), .delay .settle]

/-- The reset pulse: its events, the line left at level `A` (41_reset_init.md R121); CTRL loses its configuration (R120). -/
def resetPulse (s : State) : State :=
  toCtrl .resetPulse { s with rst := .a, trace := s.trace ++ resetEvents }

/-! ## Construction and release -/

/-- The geometry INIT accepts (00_scope.md R7, 41_reset_init.md R128). -/
def geometryOk (resX resY : Coord) : Bool :=
  decide (1 ≤ resX.toNat) && decide (resX.toNat ≤ Config.maxResX) && decide (1 ≤ resY.toNat) &&
    decide (resY.toNat ≤ Config.maxResY)

/-- `packed_width = (res_x + 1) div 2` (30_encoding.md R102). -/
def packedWidth (resX : Coord) : Nat := (resX.toNat + 1) / 2

/-- `buffer_size = packed_width * res_y` (30_encoding.md R102). -/
def bufferSize (resX resY : Coord) : Nat := packedWidth resX * resY.toNat

/-- The environment's next answer to `Allocate`, consumed (60_exceptions.md R231). -/
def askAllocate (s : State) : Answer × State :=
  (s.env.allocate.headD .ok, { s with env := { s.env with allocate := s.env.allocate.tail } })

/-- The environment's next answer to `Attach`, consumed (60_exceptions.md R231). -/
def askAttach (s : State) : Answer × State :=
  (s.env.attach.headD .ok, { s with env := { s.env with attach := s.env.attach.tail } })

/-- The geometry latched, the buffer held and the transport bound (41_reset_init.md R125). -/
def latch (resX resY : Coord) (s : State) : State :=
  { s with
    resX := resX, resY := resY
    pw := BitVec.ofNat 16 (packedWidth resX), bsz := BitVec.ofNat 32 (bufferSize resX resY)
    bound := true, fb := some (Memory.fresh (bufferSize resX resY)) }

/-- `ConfigurePins` (41_reset_init.md R125, 60_exceptions.md R254). -/
def configurePins (s : State) : State := emit .dircfg { s with pincfg := true }

/-- `Release(transport); Free(FB)`: the binding and the buffer are gone and the geometry registers are undefined
(10_state.md R22, 41_reset_init.md R126, R137, log 9). -/
def release (s : State) : State :=
  { s with
    bound := false, fb := none
    resX := Config.freeCoord s.freeCount 0, resY := Config.freeCoord s.freeCount 1
    pw := Config.freeCoord s.freeCount 2, bsz := Config.freeBsz s.freeCount
    freeCount := s.freeCount + 1 }

/-- The end of an INIT that failed in its program: everything released, the controller left with what was sent so far
(41_reset_init.md R126, R133). `PINCFG` stays as the pseudocode of 41_reset_init.md R125 set it (60_exceptions.md R243,
10_state.md R32; log 23 for R252). -/
def abandon (s : State) : State := release (toCtrl .brokenProgram s)

/-- The end of DEINIT (41_reset_init.md R136, R137); `SEQ_PC` is unspecified after it (70_reset_and_hazards.md R264). -/
def tearDown (s : State) : State :=
  { release s with life := .tornDown, seqPc := BitVec.ofNat 5 (Config.freeSeqPc s.freeCount).val }

/-! ## The blitter's shared loops -/

/-- A bitmap: pixel `k` of `w*h`, row-major, the colour read before the pixel is written (44_blitter.md R191, R194,
60_exceptions.md R242). The counter `k` never resets at a row boundary. -/
def blit (color : Env → Ref → Nat → Except Err Color) (x y : Nat) (source : Ref) (w h : Nat) (s : State) : Res Unit :=
  forEach (fun k t =>
    match color t.env source k with
    | .ok c => setPixel (x + k % w) (y + k / w) c t
    | .error e => .raised e t) (interval 0 (w * h)) s

/-- The colour reader `GLYPH_FMT` chooses for glyph bitmaps (44_blitter.md R197). -/
def glyphColor : Env → Ref → Nat → Except Err Color :=
  match Config.glyphFmt with
  | .four => color4
  | .eight => color8

/-- The body of CHAR with its advance (44_blitter.md R197): an invalid code is a defined no-op with advance 0. -/
def drawChar (x y : Nat) (ch : Byte) (font : Ref) (s : State) : Res Coord :=
  if validCode (fontOf s.env font) ch then
    let g := glyphOf (fontOf s.env font) ch
    (blit glyphColor x y g.bmp g.w.toNat g.h.toNat s).andThen fun _ t => .done g.w t
  else .done 0 s

/-- The loop of STR over the characters left (44_blitter.md R200, R201). -/
def drawString (y : Nat) (font : Ref) : List Byte → Nat → State → Res Unit
  | [], _, s => .done () s
  | ch :: rest, cur, s =>
    if ch = Config.newline then .done () s
    else if s.resX.toNat ≤ cur then .done () s
    else (drawChar cur y ch font s).andThen fun adv t => drawString y font rest (cur + adv.toNat) t

/-! ## The controller -/

/-- The address of a window position in `GRAM` (log 20). -/
def gramKey (row col : Nat) : Nat := row * 256 + col

/-- The byte known to be at an address of `GRAM`. -/
def gramRead (a : Nat) (cells : List Host.Cell) : Option Byte :=
  match cells with
  | [] => none
  | (b, v) :: rest => if a = b then some v else gramRead a rest

/-- The cells with address `a` known to hold `v`. -/
def gramWrite (a : Nat) (v : Byte) : List Host.Cell → List Host.Cell
  | [] => [(a, v)]
  | (b, w) :: rest =>
    if a < b then (a, v) :: (b, w) :: rest else if a = b then (a, v) :: rest else (b, w) :: gramWrite a v rest

/-- Columns of a window. -/
def Window.wide (w : Window) : Nat := w.colStop.toNat + 1 - w.colStart.toNat

/-- Rows of a window. -/
def Window.high (w : Window) : Nat := w.rowStop.toNat + 1 - w.rowStart.toNat

/-- Whether an address of `GRAM` lies inside the window. -/
def Window.covers (w : Window) (a : Nat) : Bool :=
  decide (w.rowStart.toNat ≤ a / 256) && decide (a / 256 ≤ w.rowStop.toNat) &&
    decide (w.colStart.toNat ≤ a % 256) && decide (a % 256 ≤ w.colStop.toNat)

/-- The bytes of a window no longer known. -/
def gramForget (w : Window) (cells : List Host.Cell) : List Host.Cell := cells.filter fun c => !w.covers c.1

/-- A payload that exactly fills the window, row-major, low address to high (20_memory.md R77). -/
def gramFill (w : Window) (payload : List Byte) (cells : List Host.Cell) : List Host.Cell :=
  payload.zipIdx.foldr
    (fun bj acc => gramWrite (gramKey (w.rowStart.toNat + bj.2 / w.wide) (w.colStart.toNat + bj.2 % w.wide)) bj.1 acc)
    (gramForget w cells)

/-- Whether R77 speaks of the window: inside the columns and rows that the geometry range of 00_scope.md R7 has, to which
20_memory.md R77 limits itself, not reversed, and not set by an operand that wrapped (93_implementation_defined.md U6). -/
def Ctrl.windowStated (c : Ctrl) : Bool :=
  decide (Config.colOffset ≤ c.window.colStart.toNat) && decide (c.window.colStart ≤ c.window.colStop) &&
    decide (c.window.colStop.toNat < Config.colOffset + Config.winMod) &&
    decide (c.window.rowStart ≤ c.window.rowStop) && decide (c.window.rowStop.toNat < Config.winMod) &&
    !c.columnsBarred && !c.rowsBarred

/-- `GRAM` after a memory write, as far as the spec fixes it (log 19): an exact fill of a fresh window while awake (R77);
otherwise no byte the payload may have reached is known: the window's bytes for a payload it can hold (U7, U17), any byte
for a longer payload (R78) or a window to which R77 must not be applied (U6) or of which it does not speak (R7). -/
def gramAfterWrite (c : Ctrl) (payload : List Byte) : List Host.Cell :=
  let w := c.window
  if c.windowStated = false ∨ w.wide * w.high < payload.length then []
  else if c.pointer = .atStart ∧ c.regs.asleep = false ∧ payload.length = w.wide * w.high then gramFill w payload c.gram
  else gramForget w c.gram

/-- CTRL with new registers; any command but a window one ends what is known of the write pointer (20_memory.md R72). -/
def ctrlRegs (r : CtrlRegs) (s : State) : State :=
  { s with ctrl := { s.ctrl with regs := r, pointer := .anywhere }, freeCount := s.freeCount + 1 }

/-- A register command: the register takes the payload where the spec states that it does, and a free value where it does
not (log 17). Whatever the command lock holds: the spec gives the lock no effect on another command (10_state.md R33,
60_exceptions.md R251, 70_reset_and_hazards.md R274), and that it has none, also where it was never opened or is unknown, is
the model's choice (log 33). -/
def ctrlSet {α : Type} (stated : Bool) (v : α) (read : CtrlRegs → α) (set : α → CtrlRegs → CtrlRegs) (s : State) : State :=
  ctrlRegs (set (if stated then v else read (Config.freeRegs s.freeCount)) s.ctrl.regs) s

/-- CTRL with another record of what its registers hold when it wakes, where `change` says so (log 32). -/
def ctrlOnWaking (change : Bool) (r : CtrlRegs) (s : State) : State :=
  { s with ctrl := { s.ctrl with onWaking := if change then r else s.ctrl.onWaking } }

/-- A command of steps 3 to 6 of the init program: stated for a sleeping controller (70_reset_and_hazards.md R273), where the
register stands over the waking too (R263); whatever the command lock holds (log 33). -/
def ctrlConfigure {α : Type} (v : α) (read : CtrlRegs → α) (set : α → CtrlRegs → CtrlRegs) (s : State) : State :=
  ctrlSet s.ctrl.regs.asleep v read set (ctrlOnWaking s.ctrl.regs.asleep (set v s.ctrl.onWaking) s)

/-- A command of steps 8 to 11 or of the façade: stated for a waking controller (93_implementation_defined.md U17), whatever
the command lock holds (log 33). -/
def ctrlAdjust {α : Type} (v : α) (read : CtrlRegs → α) (set : α → CtrlRegs → CtrlRegs) (s : State) : State :=
  ctrlSet (!s.ctrl.regs.asleep) v read set s

/-- CTRL going to sleep: its registers and its memory are as they were (70_reset_and_hazards.md R265), and nothing is known of
what the registers will hold when it wakes (60_exceptions.md R257, log 32). A controller that sleeps already sleeps on. -/
def ctrlSleep (s : State) : State :=
  ctrlSet true true (·.asleep) (fun a r => { r with asleep := a })
    (ctrlOnWaking (!s.ctrl.regs.asleep) (Config.freeWaking s.freeCount) s)

/-- CTRL waking: what its registers and its memory held before its sleep survives or not, the spec does not say
(60_exceptions.md R257, 93_implementation_defined.md U17); the registers configured while it slept stand, and so does the lock
(70_reset_and_hazards.md R263, 60_exceptions.md R251) and the window (20_memory.md R76) (log 32). A controller that is awake
stays as it is. -/
def ctrlWake (s : State) : State :=
  { s with
    ctrl := { s.ctrl with
      regs :=
        if s.ctrl.regs.asleep then { s.ctrl.onWaking with asleep := false, unlock := s.ctrl.regs.unlock }
        else s.ctrl.regs
      pointer := .anywhere
      gram := if s.ctrl.regs.asleep then [] else s.ctrl.gram }
    freeCount := s.freeCount + 1 }

/-- CTRL after an event that leaves all of it unknown but the parts that stand: free registers, free window bytes to which
R77 is not applied, no byte of its memory known, the write pointer anywhere (log 18). -/
def ctrlUnknown (k : Stands) (s : State) : State :=
  let w := Config.freeWindow s.freeCount
  { s with
    ctrl :=
      { regs := if k.regs then s.ctrl.regs else Config.freeRegs s.freeCount
        onWaking := if k.regs then s.ctrl.onWaking else Config.freeWaking s.freeCount
        window :=
          { colStart := if k.columns then s.ctrl.window.colStart else w.colStart
            colStop := if k.columns then s.ctrl.window.colStop else w.colStop
            rowStart := if k.rows then s.ctrl.window.rowStart else w.rowStart
            rowStop := if k.rows then s.ctrl.window.rowStop else w.rowStop }
        columnsBarred := !k.columns || s.ctrl.columnsBarred
        rowsBarred := !k.rows || s.ctrl.rowsBarred
        pointer := .anywhere
        gram := [] }
    freeCount := s.freeCount + 1 }

/-- What of the window stands after a command of this code that is not received as described: all of it but the half the
command sets (20_memory.md R76, 93_implementation_defined.md U2). -/
def windowStands (code : Byte) (regs : Bool) : Stands :=
  ⟨regs, decide (code ≠ Config.cmdCode .setCol), decide (code ≠ Config.cmdCode .setRow)⟩

/-- CTRL after a command with an unknown code or a wrong payload length: every register but the window is unknown
(93_implementation_defined.md U2, log 18). -/
def ctrlUndescribed (code : Byte) (s : State) : State := ctrlUnknown (windowStands code false) s

/-- Whether a command is one of FLUSH's three (43_framebuffer.md R179). -/
def isFlushCode (code : Byte) : Bool :=
  decide (code = Config.cmdCode .setCol) || decide (code = Config.cmdCode .setRow) ||
    decide (code = Config.cmdCode .writeRam)

/-- CTRL after a failed phase: of a window command or a memory write of a length the command has, the registers stand and
the memory, the pointer and the window half sent are unknown (43_framebuffer.md R180, 10_state.md R46,
93_implementation_defined.md U11); of another command every register but the window is unknown (60_exceptions.md R234, U2)
(log 18). -/
def ctrlBroken (code : Byte) (payload : List Byte) (s : State) : State :=
  ctrlUnknown (windowStands code (isFlushCode code && (payload.isEmpty || (decode (.command code payload)).isOk))) s

/-- CTRL after a FLUSH cut short: its window and memory are unknown (43_framebuffer.md R180, log 18). -/
def ctrlHalfFlushed (s : State) : State := ctrlUnknown ⟨true, false, false⟩ s

/-- CTRL after an init program cut short: every register but the window is unknown (93_implementation_defined.md U2,
41_reset_init.md R126, log 18). -/
def ctrlHalfProgrammed (s : State) : State := ctrlUnknown ⟨false, true, true⟩ s

/-- CTRL after a reset pulse: nothing of it is known, the window neither (93_implementation_defined.md U2, log 18). -/
def ctrlLost (s : State) : State := ctrlUnknown ⟨false, false, false⟩ s

/-- CTRL with a new active window: the bytes of R76 in the half that a window command sets. The write pointer is at the
window's start only when the row window follows the column window at once (20_memory.md R72, R78). -/
def ctrlWindow (w : Window) (columnsBarred rowsBarred : Bool) (p : Pointer) (s : State) : State :=
  { s with
    ctrl := { s.ctrl with window := w, columnsBarred := columnsBarred, rowsBarred := rowsBarred, pointer := p } }

/-- R77 barred for the column window just received (93_implementation_defined.md U6, log 35). -/
def ctrlBarColumns (s : State) : State := { s with ctrl := { s.ctrl with columnsBarred := true } }

/-- R77 barred for the row window just received (93_implementation_defined.md U6, log 35). -/
def ctrlBarRows (s : State) : State := { s with ctrl := { s.ctrl with rowsBarred := true } }

/-- `GRAM` after a memory write; the pointer is then anywhere (20_memory.md R78). The registers, the sleep state among them, and
the window stand at every payload, also one longer or shorter than the window, for which R78 bars assuming anything and
70_reset_and_hazards.md R280 leaves the command parser undescribed: the model's choice (log 36). -/
def ctrlStore (payload : List Byte) (s : State) : State :=
  { s with ctrl := { s.ctrl with gram := gramAfterWrite s.ctrl payload, pointer := .anywhere } }

end Sys2Proof.Machine
end

