-- ==== Sys2Proof/Machine/Blitter.lean ====
section
/-! DEFINITION. HLINE, VLINE, BMP4, BMP8, CHAR and STR (44_blitter.md): each a sequence of SETPIX steps in a stated order. -/

namespace Sys2Proof.Machine

/-- HLINE (44_blitter.md R185): `[x1, x2)`, stop-exclusive. -/
def execHline (x1 x2 y : Coord) (color : Color) (s : State) : Host.Outcome State Fault Refusal :=
  request .hline
    (fun t => (forEach (fun x => setPixel x y.toNat color) (interval x1.toNat x2.toNat) t).answer fun _ => .ok) s

/-- VLINE (44_blitter.md R188): `[y1, y2)`, stop-exclusive. -/
def execVline (y1 y2 x : Coord) (color : Color) (s : State) : Host.Outcome State Fault Refusal :=
  request .vline
    (fun t => (forEach (fun y => setPixel x.toNat y color) (interval y1.toNat y2.toNat) t).answer fun _ => .ok) s

/-- BMP4 (44_blitter.md R191). -/
def execBmp4 (x y : Coord) (source : Ref) (w h : Coord) (s : State) : Host.Outcome State Fault Refusal :=
  request .bmp4 (fun t => (blit color4 x.toNat y.toNat source w.toNat h.toNat t).answer fun _ => .ok) s

/-- BMP8 (44_blitter.md R194). -/
def execBmp8 (x y : Coord) (source : Ref) (w h : Coord) (s : State) : Host.Outcome State Fault Refusal :=
  request .bmp8 (fun t => (blit color8 x.toNat y.toNat source w.toNat h.toNat t).answer fun _ => .ok) s

/-- CHAR (44_blitter.md R197): answers the advance. -/
def execChar (x y : Coord) (ch : Byte) (font : Ref) (s : State) : Host.Outcome State Fault Refusal :=
  request .char (fun t => (drawChar x.toNat y.toNat ch font t).answer .okAdvance) s

/-- STR (44_blitter.md R200). -/
def execStr (x y : Coord) (string font : Ref) (s : State) : Host.Outcome State Fault Refusal :=
  request .str
    (fun t => (drawString y.toNat font (streamOf t.env string) x.toNat t).answer fun _ => .ok) s

end Sys2Proof.Machine
end

