-- ==== Sys2Proof/Machine/Channel.lean ====
section
/-! DEFINITION. SEND, COLWIN and ROWWIN (40_command_channel.md, 42_window.md). -/

namespace Sys2Proof.Machine

/-- SEND (40_command_channel.md R110): no check of the code or of the length (R111). -/
def execSend (code : Byte) (payload : Ref) (n : Coord) (s : State) : Host.Outcome State Fault Refusal :=
  request .send (fun t => (sendFrom code payload n.toNat t).answer fun _ => .ok) s

/-- COLWIN (42_window.md R160): no check of the operands (R161). -/
def execColwin (xStart xStop : Coord) (s : State) : Host.Outcome State Fault Refusal :=
  request .colwin (fun t => (sendColumns xStart.toNat xStop.toNat t).answer fun _ => .ok) s

/-- ROWWIN (42_window.md R163). -/
def execRowwin (yStart yStop : Coord) (s : State) : Host.Outcome State Fault Refusal :=
  request .rowwin (fun t => (sendRows yStart.toNat yStop.toNat t).answer fun _ => .ok) s

end Sys2Proof.Machine
end

