-- ==== Sys2Proof/Machine/Controller.lean ====
section
/-! DEFINITION. The 26 controller commands as CTRL executes them from the wire (30_encoding.md R92, 10_state.md R33, R34,
20_memory.md R76, R77, 70_reset_and_hazards.md R263). PPFB's part, the emission, is `sendBytes`. PPFB's own registers,
framebuffer and trace are never touched here. -/

namespace Sys2Proof.Machine

/-- `UNLOCK`: "Unlock extended command set" (R92); stated whatever the sleep state (41_reset_init.md R130 entry 0). -/
def execCmdUnlock (v : Byte) (s : State) : Host.Outcome State Fault Refusal :=
  .next (ctrlSet true v (·.unlock) (fun a r => { r with unlock := a }) s)

/-- `SLEEP_ON`: "Put controller to sleep" (45_facade.md R214, 60_exceptions.md R257). -/
def execCmdSleepOn (s : State) : Host.Outcome State Fault Refusal :=
  .next (ctrlSleep s)

/-- `CLOCK`: "oscillator divider and frequency" (R33). -/
def execCmdClock (v : Byte) (s : State) : Host.Outcome State Fault Refusal :=
  .next (ctrlConfigure v (·.clock) (fun a r => { r with clock := a }) s)

/-- `FUNCSEL`: "enable internal regulator" (R33). -/
def execCmdFuncsel (v : Byte) (s : State) : Host.Outcome State Fault Refusal :=
  .next (ctrlConfigure v (·.funcsel) (fun a r => { r with funcsel := a }) s)

/-- `PRECHARGE_V`: "pre-charge voltage" (R33). -/
def execCmdPrechargeV (v : Byte) (s : State) : Host.Outcome State Fault Refusal :=
  .next (ctrlConfigure v (·.prechargeV) (fun a r => { r with prechargeV := a }) s)

/-- `PRECHARGE2`: "second pre-charge period" (R33). -/
def execCmdPrecharge2 (v : Byte) (s : State) : Host.Outcome State Fault Refusal :=
  .next (ctrlConfigure v (·.precharge2) (fun a r => { r with precharge2 := a }) s)

/-- `VCOMH`: "common-mode voltage (VCOMH)" (R33). -/
def execCmdVcomh (v : Byte) (s : State) : Host.Outcome State Fault Refusal :=
  .next (ctrlConfigure v (·.vcomh) (fun a r => { r with vcomh := a }) s)

/-- `ENH_1`: the first vendor "enhancement" register (R33); another length is U2. -/
def execCmdEnh1 (p : List Byte) (s : State) : Host.Outcome State Fault Refusal :=
  if p.length = Config.lenEnh1 then .next (ctrlConfigure p (·.enh1) (fun a r => { r with enh1 := a }) s)
  else .next (ctrlUndescribed (Config.cmdCode .enh1) s)

/-- `ENH_2`: the second vendor "enhancement" register (R33); another length is U2. -/
def execCmdEnh2 (p : List Byte) (s : State) : Host.Outcome State Fault Refusal :=
  if p.length = Config.lenEnh2 then .next (ctrlConfigure p (·.enh2) (fun a r => { r with enh2 := a }) s)
  else .next (ctrlUndescribed (Config.cmdCode .enh2) s)

/-- `MUX`: "multiplex ratio" (R33). -/
def execCmdMux (v : Byte) (s : State) : Host.Outcome State Fault Refusal :=
  .next (ctrlConfigure v (·.mux) (fun a r => { r with mux := a }) s)

/-- `EXIT_PARTIAL`: "exit any partial-display mode" (R33). -/
def execCmdExitPartial (s : State) : Host.Outcome State Fault Refusal :=
  .next (ctrlConfigure false (·.partialMode) (fun a r => { r with partialMode := a }) s)

/-- `SET_COL`: the column window is the bytes received (20_memory.md R76), and no longer a wrapped or unknown one (log 35). -/
def execCmdSetCol (start stop : Byte) (s : State) : Host.Outcome State Fault Refusal :=
  .next (ctrlWindow { s.ctrl.window with colStart := start, colStop := stop } false s.ctrl.rowsBarred .freshColumn s)

/-- `SET_ROW`: the row window is the bytes received (20_memory.md R76), and no longer a wrapped or unknown one (log 35). -/
def execCmdSetRow (start stop : Byte) (s : State) : Host.Outcome State Fault Refusal :=
  .next (ctrlWindow { s.ctrl.window with rowStart := start, rowStop := stop } s.ctrl.columnsBarred false
    (if s.ctrl.pointer = .freshColumn then .atStart else .anywhere) s)

/-- `OFFSET`: "vertical offset" (R33). -/
def execCmdOffset (v : Byte) (s : State) : Host.Outcome State Fault Refusal :=
  .next (ctrlConfigure v (·.offset) (fun a r => { r with offset := a }) s)

/-- `STARTLINE`: "start line" (R33). -/
def execCmdStartline (v : Byte) (s : State) : Host.Outcome State Fault Refusal :=
  .next (ctrlConfigure v (·.startline) (fun a r => { r with startline := a }) s)

/-- `REMAP`: the remap/format register (R33); another length is U2. -/
def execCmdRemap (p : List Byte) (s : State) : Host.Outcome State Fault Refusal :=
  if p.length = Config.lenRemap then .next (ctrlConfigure p (·.remap) (fun a r => { r with remap := a }) s)
  else .next (ctrlUndescribed (Config.cmdCode .remap) s)

/-- `SLEEP_OFF`: "Wake the controller (exit sleep)" (45_facade.md R215). -/
def execCmdSleepOff (s : State) : Host.Outcome State Fault Refusal :=
  .next (ctrlWake s)

/-- `GRAY_DEFAULT`: "Select the default grayscale ramp" (45_facade.md R216). -/
def execCmdGrayDefault (s : State) : Host.Outcome State Fault Refusal :=
  .next (ctrlAdjust .default (·.gray) (fun a r => { r with gray := a }) s)

/-- `CONTRAST`: "contrast current"; whole byte (R33, 45_facade.md R218). -/
def execCmdContrast (v : Byte) (s : State) : Host.Outcome State Fault Refusal :=
  .next (ctrlAdjust v (·.contrast) (fun a r => { r with contrast := a }) s)

/-- `BRIGHTNESS`: "master brightness" (R33, 45_facade.md R219). R33 says "low 4 bits used" of its payload and no more: that the
register keeps bits 7 to 4 of a byte sent with SEND is the model's choice (log 38). -/
def execCmdBrightness (v : Byte) (s : State) : Host.Outcome State Fault Refusal :=
  .next (ctrlAdjust v (·.brightness) (fun a r => { r with brightness := a }) s)

/-- `WRITE_RAM`: the payload goes into the active window (20_memory.md R77); no payload is a wrong length (U2). -/
def execCmdWriteRam (p : List Byte) (s : State) : Host.Outcome State Fault Refusal :=
  if p.length = 0 then .next (ctrlUndescribed (Config.cmdCode .writeRam) s) else .next (ctrlStore p s)

/-- `NORMAL`: "normal (non-inverted) display mode" (45_facade.md R210). -/
def execCmdNormal (s : State) : Host.Outcome State Fault Refusal :=
  .next (ctrlAdjust .normal (·.mode) (fun a r => { r with mode := a }) s)

/-- `INVERT`: inverted mode (45_facade.md R211). -/
def execCmdInvert (s : State) : Host.Outcome State Fault Refusal :=
  .next (ctrlAdjust .inverted (·.mode) (fun a r => { r with mode := a }) s)

/-- `ALL_ON`: force-on mode (45_facade.md R212). -/
def execCmdAllOn (s : State) : Host.Outcome State Fault Refusal :=
  .next (ctrlAdjust .allOn (·.mode) (fun a r => { r with mode := a }) s)

/-- `ALL_OFF`: force-off mode (45_facade.md R213). -/
def execCmdAllOff (s : State) : Host.Outcome State Fault Refusal :=
  .next (ctrlAdjust .allOff (·.mode) (fun a r => { r with mode := a }) s)

/-- `GRAY_TABLE`: a caller-supplied 16-entry ramp (10_state.md R34, 45_facade.md R217); another length is U2. That a waking
controller accepts the table sent so, as one command with 16 payload bytes, is the model's choice (log 37): 91_not_in_source.md
N29 says not to assume it. -/
def execCmdGrayTable (p : List Byte) (s : State) : Host.Outcome State Fault Refusal :=
  if p.length = Config.lenGrayTable then .next (ctrlAdjust (.table p) (·.gray) (fun a r => { r with gray := a }) s)
  else .next (ctrlUndescribed (Config.cmdCode .grayTable) s)

end Sys2Proof.Machine
end

