-- ==== Sys2Proof/Machine/Facade.lean ====
section
/-! DEFINITION. The façade: "direct one-to-one mappings to Command Channel calls" (45_facade.md). -/

namespace Sys2Proof.Machine

/-- MODENORM (45_facade.md R210). -/
def execModenorm (s : State) : Host.Outcome State Fault Refusal :=
  request .modenorm (fun t => (sendCmd .normal [] t).answer fun _ => .ok) s

/-- MODEINV (45_facade.md R211). -/
def execModeinv (s : State) : Host.Outcome State Fault Refusal :=
  request .modeinv (fun t => (sendCmd .invert [] t).answer fun _ => .ok) s

/-- MODEON (45_facade.md R212). -/
def execModeon (s : State) : Host.Outcome State Fault Refusal :=
  request .modeon (fun t => (sendCmd .allOn [] t).answer fun _ => .ok) s

/-- MODEOFF (45_facade.md R213). -/
def execModeoff (s : State) : Host.Outcome State Fault Refusal :=
  request .modeoff (fun t => (sendCmd .allOff [] t).answer fun _ => .ok) s

/-- SLEEP (45_facade.md R214). -/
def execSleep (s : State) : Host.Outcome State Fault Refusal :=
  request .sleep (fun t => (sendCmd .sleepOn [] t).answer fun _ => .ok) s

/-- WAKE (45_facade.md R215). -/
def execWake (s : State) : Host.Outcome State Fault Refusal :=
  request .wake (fun t => (sendCmd .sleepOff [] t).answer fun _ => .ok) s

/-- GRAYDEF (45_facade.md R216). -/
def execGraydef (s : State) : Host.Outcome State Fault Refusal :=
  request .graydef (fun t => (sendCmd .grayDefault [] t).answer fun _ => .ok) s

/-- GRAYTAB (45_facade.md R217): 16 entries, sent as given. -/
def execGraytab (table : Ref) (s : State) : Host.Outcome State Fault Refusal :=
  request .graytab
    (fun t => (sendFrom (Config.cmdCode .grayTable) table Config.lenGrayTable t).answer fun _ => .ok) s

/-- SETCON (45_facade.md R218): the byte goes out whole. -/
def execSetcon (v : Byte) (s : State) : Host.Outcome State Fault Refusal :=
  request .setcon (fun t => (sendCmd .contrast [v] t).answer fun _ => .ok) s

/-- SETBRI (45_facade.md R219): masked to 4 bits. -/
def execSetbri (v : Byte) (s : State) : Host.Outcome State Fault Refusal :=
  request .setbri (fun t => (sendCmd .brightness [nib v] t).answer fun _ => .ok) s

end Sys2Proof.Machine
end

