-- ==== Sys2Proof/Machine/Framebuffer.lean ====
section
/-! DEFINITION. SETPIX, GETPIX, FILL and FLUSH (43_framebuffer.md). -/

namespace Sys2Proof.Machine

/-- SETPIX (43_framebuffer.md R170). -/
def execSetpix (x y : Coord) (color : Color) (s : State) : Host.Outcome State Fault Refusal :=
  request .setpix (fun t => (setPixel x.toNat y.toNat color t).answer fun _ => .ok) s

/-- GETPIX (43_framebuffer.md R173). -/
def execGetpix (x y : Coord) (s : State) : Host.Outcome State Fault Refusal :=
  request .getpix (fun t => (getPixel x.toNat y.toNat t).answer .okPixel) s

/-- FILL (43_framebuffer.md R176). -/
def execFill (color : Color) (s : State) : Host.Outcome State Fault Refusal :=
  request .fill (fun t => (fillFb color t).answer fun _ => .ok) s

/-- FLUSH (43_framebuffer.md R179). -/
def execFlush (s : State) : Host.Outcome State Fault Refusal :=
  request .flush (fun t => (flushFb t).answer fun _ => .ok) s

end Sys2Proof.Machine
end

