-- ==== Sys2Proof/Machine/InitProgram.lean ====
section
/-! DEFINITION. The init program: its ROM of 25 entries and the sequencer that walks it (41_reset_init.md R129 to R135,
10_state.md R24, R25, R42). -/

namespace Sys2Proof.Machine

/-- The payload of a program entry that sends a command directly (41_reset_init.md R130). -/
inductive EntryPayload where
  | const (bs : List Byte)
  | muxRatio
  deriving DecidableEq, Repr

/-- An entry of the program ROM. -/
inductive Entry where
  | send (c : Cmd) (p : EntryPayload)
  | fullColumns
  | fullRows
  | clear
  | writeBuffer
  deriving DecidableEq, Repr

/-- The program ROM (41_reset_init.md R130). -/
def initProgram : List Entry :=
  [.send .unlock (.const [Config.kUnlock]),
   .send .sleepOn (.const []),
   .send .clock (.const [Config.kClock]),
   .send .funcsel (.const [Config.kFuncsel]),
   .send .prechargeV (.const [Config.kPrechargeV]),
   .send .precharge2 (.const [Config.kPrecharge2]),
   .send .vcomh (.const [Config.kVcomh]),
   .send .enh1 (.const Config.kEnh1),
   .send .enh2 (.const Config.kEnh2),
   .send .mux .muxRatio,
   .send .exitPartial (.const []),
   .fullColumns,
   .fullRows,
   .send .offset (.const [0]),
   .send .startline (.const [0]),
   .send .remap (.const Config.kRemap),
   .send .sleepOff (.const []),
   .send .grayDefault (.const []),
   .send .contrast (.const [Config.kContrastDefault]),
   .send .brightness (.const [nib Config.kBrightnessDefault]),
   .clear,
   .fullColumns,
   .fullRows,
   .writeBuffer,
   .send .normal (.const [])]

/-- The payload bytes of an entry; the multiplex ratio is `RES_Y - 1` (41_reset_init.md R130). -/
def entryPayload (p : EntryPayload) (s : State) : List Byte :=
  match p with
  | .const bs => bs
  | .muxRatio => [BitVec.ofNat 8 (s.resY.toNat - 1)]

/-- What an entry does (41_reset_init.md R130). -/
def runEntry (e : Entry) (s : State) : Res Unit :=
  match e with
  | .send c p => sendCmd c (entryPayload p s) s
  | .fullColumns => sendFullColumns s
  | .fullRows => sendFullRows s
  | .clear => fillFb Config.initClearColor s
  | .writeBuffer => sendFb s

/-- `SEQ_PC` advances by exactly 1 after an entry that completes (10_state.md R25). -/
def advance (s : State) : State := { s with seqPc := s.seqPc + 1 }

/-- The entries left, each run at its `SEQ_PC`; a failing entry ends the program with `SEQ_PC` at its index
(41_reset_init.md R133). -/
def runEntries : List Entry → State → Res Unit
  | [], s => .done () s
  | e :: es, s => (runEntry e s).andThen fun _ t => runEntries es (advance t)

/-- `pc <- 0` and the whole program (41_reset_init.md R125). -/
def runProgram (s : State) : Res Unit := runEntries initProgram { s with seqPc := 0 }

end Sys2Proof.Machine
end

