-- ==== Sys2Proof/Machine/Lifecycle.lean ====
section
/-! DEFINITION. INIT, DEINIT and HWRESET (41_reset_init.md). -/

namespace Sys2Proof.Machine

/-- The part of INIT after the acquisitions: pins, reset pulse, program (41_reset_init.md R125, R133). -/
def construct (s : State) : Res Result :=
  match runProgram (resetPulse (configurePins s)) with
  | .done _ t => .done .ok { t with life := .constructed }
  | .raised e t => .raised e (abandon t)
  | .stopped f => .stopped f

/-- INIT's acquisitions in their order: allocate, attach, latch (41_reset_init.md R125 to R127). The handles name objects
of the environment, which answers `Attach`. -/
def acquire (resX resY : Coord) (s : State) : Res Result :=
  match askAllocate s with
  | (.fail, s₁) => .raised .allocationFailure s₁
  | (.ok, s₁) =>
    match askAttach s₁ with
    | (.fail, s₂) => .raised .busAttachFailure s₂
    | (.ok, s₂) => construct (latch resX resY s₂)

/-- INIT (41_reset_init.md R125, 60_exceptions.md R250). -/
def execInit (_transport _pins : Ref) (resX resY : Coord) (s : State) : Host.Outcome State Fault Refusal :=
  if s.life = .constructed then finish (.raised (.lifecycleViolation .init) s)
  else if geometryOk resX resY then finish (acquire resX resY s)
  else finish (.raised (.geometryRefused resX resY) s)

/-- The body of DEINIT: the sleep command, then the teardown whatever its answer (41_reset_init.md R136). -/
def deinitBody (s : State) : Res Result :=
  match sendCmd .sleepOn [] s with
  | .done _ t => .done .ok (tearDown t)
  | .raised e t => .raised e (tearDown t)
  | .stopped f => .stopped f

/-- DEINIT (41_reset_init.md R136). -/
def execDeinit (s : State) : Host.Outcome State Fault Refusal := request .deinit deinitBody s

/-- HWRESET (41_reset_init.md R120). -/
def execHwreset (s : State) : Host.Outcome State Fault Refusal :=
  request .hwreset (fun t => .done .ok (resetPulse t)) s

end Sys2Proof.Machine
end

