-- ==== Sys2Proof/Machine/Dispatch.lean ====
section
/-! DEFINITION. The meaning of every instruction: one arm per constructor of `Instr`, each one direct call. -/

namespace Sys2Proof.Machine

def exec (i : Instr) (s : State) : Host.Outcome State Fault Refusal :=
  match i with
  | .init transport pins resX resY => Sys2Proof.Machine.execInit transport pins resX resY s
  | .deinit => Sys2Proof.Machine.execDeinit s
  | .hwreset => Sys2Proof.Machine.execHwreset s
  | .send code payload n => Sys2Proof.Machine.execSend code payload n s
  | .colwin xStart xStop => Sys2Proof.Machine.execColwin xStart xStop s
  | .rowwin yStart yStop => Sys2Proof.Machine.execRowwin yStart yStop s
  | .setpix x y color => Sys2Proof.Machine.execSetpix x y color s
  | .getpix x y => Sys2Proof.Machine.execGetpix x y s
  | .fill color => Sys2Proof.Machine.execFill color s
  | .flush => Sys2Proof.Machine.execFlush s
  | .hline x1 x2 y color => Sys2Proof.Machine.execHline x1 x2 y color s
  | .vline y1 y2 x color => Sys2Proof.Machine.execVline y1 y2 x color s
  | .bmp4 x y source w h => Sys2Proof.Machine.execBmp4 x y source w h s
  | .bmp8 x y source w h => Sys2Proof.Machine.execBmp8 x y source w h s
  | .char x y ch font => Sys2Proof.Machine.execChar x y ch font s
  | .str x y string font => Sys2Proof.Machine.execStr x y string font s
  | .modenorm => Sys2Proof.Machine.execModenorm s
  | .modeinv => Sys2Proof.Machine.execModeinv s
  | .modeon => Sys2Proof.Machine.execModeon s
  | .modeoff => Sys2Proof.Machine.execModeoff s
  | .sleep => Sys2Proof.Machine.execSleep s
  | .wake => Sys2Proof.Machine.execWake s
  | .graydef => Sys2Proof.Machine.execGraydef s
  | .graytab table => Sys2Proof.Machine.execGraytab table s
  | .setcon v => Sys2Proof.Machine.execSetcon v s
  | .setbri v => Sys2Proof.Machine.execSetbri v s
  | .cmdUnlock v => Sys2Proof.Machine.execCmdUnlock v s
  | .cmdSleepOn => Sys2Proof.Machine.execCmdSleepOn s
  | .cmdClock v => Sys2Proof.Machine.execCmdClock v s
  | .cmdFuncsel v => Sys2Proof.Machine.execCmdFuncsel v s
  | .cmdPrechargeV v => Sys2Proof.Machine.execCmdPrechargeV v s
  | .cmdPrecharge2 v => Sys2Proof.Machine.execCmdPrecharge2 v s
  | .cmdVcomh v => Sys2Proof.Machine.execCmdVcomh v s
  | .cmdEnh1 p => Sys2Proof.Machine.execCmdEnh1 p s
  | .cmdEnh2 p => Sys2Proof.Machine.execCmdEnh2 p s
  | .cmdMux v => Sys2Proof.Machine.execCmdMux v s
  | .cmdExitPartial => Sys2Proof.Machine.execCmdExitPartial s
  | .cmdSetCol start stop => Sys2Proof.Machine.execCmdSetCol start stop s
  | .cmdSetRow start stop => Sys2Proof.Machine.execCmdSetRow start stop s
  | .cmdOffset v => Sys2Proof.Machine.execCmdOffset v s
  | .cmdStartline v => Sys2Proof.Machine.execCmdStartline v s
  | .cmdRemap p => Sys2Proof.Machine.execCmdRemap p s
  | .cmdSleepOff => Sys2Proof.Machine.execCmdSleepOff s
  | .cmdGrayDefault => Sys2Proof.Machine.execCmdGrayDefault s
  | .cmdContrast v => Sys2Proof.Machine.execCmdContrast v s
  | .cmdBrightness v => Sys2Proof.Machine.execCmdBrightness v s
  | .cmdWriteRam p => Sys2Proof.Machine.execCmdWriteRam p s
  | .cmdNormal => Sys2Proof.Machine.execCmdNormal s
  | .cmdInvert => Sys2Proof.Machine.execCmdInvert s
  | .cmdAllOn => Sys2Proof.Machine.execCmdAllOn s
  | .cmdAllOff => Sys2Proof.Machine.execCmdAllOff s
  | .cmdGrayTable p => Sys2Proof.Machine.execCmdGrayTable p s

end Sys2Proof.Machine
end

