-- ==== Sys2Proof/Machine/Fetch.lean ====
section
/-! DEFINITION. Which agent moves next and what it runs: CTRL while the wire holds anything, else PPFB with the next
request (00_scope.md R13, log 2, 3). -/

namespace Sys2Proof.Machine

/-- What a step finds: an instruction to run, in the state with it taken; or a state already settled. -/
inductive Fetched where
  | run (i : Instr) (s : State)
  | settled (s : State)
  deriving DecidableEq, Repr

/-- A command CTRL takes from the wire: decoded, or undescribed (93_implementation_defined.md U2). CTRL's parser has no state
of its own here: whatever was on the wire before, a command of a wrong length or a failed phase among it, the next command is
decoded afresh. The spec does not describe the parser then (40_command_channel.md R111, 70_reset_and_hazards.md R280), and
this is the model's choice (log 34). -/
def fetchCommand (code : Byte) (payload : List Byte) (s : State) : Fetched :=
  match decode (.command code payload) with
  | .ok i => .run i s
  | .error _ => .settled (ctrlUndescribed code s)

/-- A request PPFB takes from its port: decoded, or the fault `IllegalRequest(op)` (60_exceptions.md R238). -/
def fetchRequest (w : ReqWord) (s : State) : Fetched :=
  match decode (.request w) with
  | .ok i => .run i s
  | .error _ => .settled (takeError (.illegalRequest (fieldOp w)) s)

/-- The next thing to run; with an empty wire and an empty port the machine idles. -/
def fetch (s : State) : Fetched :=
  match s.wire with
  | .command code payload :: rest => fetchCommand code payload { s with wire := rest }
  | .brokenPhase code payload :: rest => .settled (ctrlBroken code payload { s with wire := rest })
  | .resetPulse :: rest => .settled (ctrlLost { s with wire := rest })
  | .brokenFlush :: rest => .settled (ctrlHalfFlushed { s with wire := rest })
  | .brokenProgram :: rest => .settled (ctrlHalfProgrammed { s with wire := rest })
  | .wrappedColumns :: rest => .settled (ctrlBarColumns { s with wire := rest })
  | .wrappedRows :: rest => .settled (ctrlBarRows { s with wire := rest })
  | [] =>
    match s.port with
    | w :: rest => fetchRequest w { s with port := rest }
    | [] => .settled s

/-- The state with an instruction's form where the next `fetch` finds it: a command first on the wire; a request first on
the port, with the wire empty so that PPFB moves. -/
def placeForm (f : Encoded) (s : State) : State :=
  match f with
  | .command code payload => { s with wire := .command code payload :: s.wire }
  | .request w => { s with wire := [], port := w :: s.port }

end Sys2Proof.Machine
end

