-- ==== Sys2Proof/Machine/Step.lean ====
section
/-! DEFINITION. One step of the machine. -/

namespace Sys2Proof.Machine

/-- One step: the next instruction fetched and executed, or the state it settles in. -/
def step (s : State) : Host.Outcome State Fault Refusal :=
  match fetch s with
  | .run i t => exec i t
  | .settled t => .next t

/-- The state whose next step runs the instruction of the opcode table's bits `w` (log 2, 21). -/
def State.withFetchWord (s : State) (nbits w : Nat) : State := placeForm (tableForm nbits w) s

end Sys2Proof.Machine
end

