-- ==== Sys2Proof/Safety.lean ====
section
/-! DEFINITION. What counts as a coherent state and a safe run, in the terms claims use (10_state.md R29, R39, R48,
60_exceptions.md R231, R252). -/

namespace Sys2Proof.Machine

/-- The geometry registers agree with each other and with the buffer (10_state.md R21, R39). -/
abbrev GeometryCoherent (s : State) : Prop :=
  geometryOk s.resX s.resY = true ∧ s.pw.toNat = packedWidth s.resX ∧ s.bsz.toNat = bufferSize s.resX s.resY ∧
    s.fb.map Memory.size = some s.bsz.toNat

/-- The framebuffer memory, when it exists, has the canonical form. -/
def fbWf (s : State) : Bool :=
  match s.fb with
  | some m => m.wf
  | none => true

/-- `GRAM` has the canonical form: addresses strictly rising and of a row byte and a column byte. -/
def gramWf (s : State) : Bool := risingFrom 0 s.ctrl.gram && s.ctrl.gram.all fun c => decide (c.1 < 65536)

/-- The invariant of the machine. In Constructed the binding is held, the pins are configured, the program has finished and
the geometry is coherent (10_state.md R48); outside it no buffer and no binding exist (60_exceptions.md R252); a torn-down
block keeps its pin configuration (R252); `SEQ_PC` is 0 to 25 (10_state.md R24); chip select is deasserted between
requests (40_command_channel.md R113); both memories have their canonical form. -/
abbrev Coherent (s : State) : Prop :=
  (s.life = .constructed →
    s.bound = true ∧ s.pincfg = true ∧ s.seqPc.toNat = 25 ∧ GeometryCoherent s) ∧
  (s.life ≠ .constructed → s.bound = false ∧ s.fb = none) ∧
  (s.life = .tornDown → s.pincfg = true) ∧
  s.seqPc.toNat ≤ 25 ∧ s.cs = .deasserted ∧ fbWf s = true ∧ gramWf s = true

/-- A coherent Constructed state: the states every drawing program runs in (10_state.md R48). -/
abbrev Ready (s : State) : Prop := s.life = .constructed ∧ Coherent s

/-- The transport answers `Ok` to the next `n` phases (60_exceptions.md R231). -/
def transportOk (n : Nat) (s : State) : Bool := (s.env.transmit.take n).all fun a => a == .ok

/-- The `TX` events of a completed `Send(code, bs)`: the command phase, and the payload phase when there is a payload
(40_command_channel.md R112, R116). -/
def sentEvents (code : Byte) (bs : List Byte) : List Event :=
  .tx false [code] :: (if bs = [] then [] else [.tx true bs])

/-- The state a completed `Send(code, bs)` leaves: its events in the trace, chip select deasserted and `DC` at the level of
the last phase (40_command_channel.md R113), one answer of the transport used per phase, the command on the wire. -/
def afterSend (code : Byte) (bs : List Byte) (s : State) : State :=
  { s with
    dc := if bs = [] then .command else .data
    cs := .deasserted
    trace := s.trace ++ sentEvents code bs
    wire := s.wire ++ [.command code bs]
    env := { s.env with transmit := s.env.transmit.drop (sentEvents code bs).length } }

/-- A run ends well when the host's requests and the wire are used up and no fault is recorded: "a state with `FAULT` set is
never a final state" (10_state.md R29, 70_reset_and_hazards.md R269). -/
abbrev Final (s : State) : Prop := s.port = [] ∧ s.wire = [] ∧ s.fault = none

end Sys2Proof.Machine
end

