-- ==== Sys2Proof/Safety/Terms.lean ====
section
/-! DEFINITION. The terms the statements of this row are written in: what the rules say a request sends, draws and leaves,
written from the rules and not from the meanings. -/

namespace Sys2Proof.Machine

/-! ### Requests and commands -/

/-- The mnemonic of a request; `none` for a controller command. -/
def requestOp : Instr → Option Op
  | .init .. => some .init
  | .deinit => some .deinit
  | .hwreset => some .hwreset
  | .send .. => some .send
  | .colwin .. => some .colwin
  | .rowwin .. => some .rowwin
  | .setpix .. => some .setpix
  | .getpix .. => some .getpix
  | .fill .. => some .fill
  | .flush => some .flush
  | .hline .. => some .hline
  | .vline .. => some .vline
  | .bmp4 .. => some .bmp4
  | .bmp8 .. => some .bmp8
  | .char .. => some .char
  | .str .. => some .str
  | .modenorm => some .modenorm
  | .modeinv => some .modeinv
  | .modeon => some .modeon
  | .modeoff => some .modeoff
  | .sleep => some .sleep
  | .wake => some .wake
  | .graydef => some .graydef
  | .graytab .. => some .graytab
  | .setcon .. => some .setcon
  | .setbri .. => some .setbri
  | .cmdUnlock .. | .cmdSleepOn | .cmdClock .. | .cmdFuncsel .. | .cmdPrechargeV .. | .cmdPrecharge2 .. | .cmdVcomh ..
  | .cmdEnh1 .. | .cmdEnh2 .. | .cmdMux .. | .cmdExitPartial | .cmdSetCol .. | .cmdSetRow .. | .cmdOffset ..
  | .cmdStartline .. | .cmdRemap .. | .cmdSleepOff | .cmdGrayDefault | .cmdContrast .. | .cmdBrightness ..
  | .cmdWriteRam .. | .cmdNormal | .cmdInvert | .cmdAllOn | .cmdAllOff | .cmdGrayTable .. => none

/-- The one `Send` of a request that makes exactly one, once its source bytes are there: its code and its payload
(40_command_channel.md R110, 42_window.md R160, R163, 45_facade.md R210 to R219). -/
def sends (i : Instr) (s : State) : Option (Byte × List Byte) :=
  match i with
  | .send code p n =>
    if n.toNat ≤ (streamOf s.env p).length then some (code, (streamOf s.env p).take n.toNat) else none
  | .colwin a b =>
    some (Config.cmdCode .setCol, [BitVec.ofNat 8 (28 + a.toNat % 128), BitVec.ofNat 8 (28 + b.toNat % 128)])
  | .rowwin a b => some (Config.cmdCode .setRow, [BitVec.ofNat 8 (a.toNat % 128), BitVec.ofNat 8 (b.toNat % 128)])
  | .modenorm => some (Config.cmdCode .normal, [])
  | .modeinv => some (Config.cmdCode .invert, [])
  | .modeon => some (Config.cmdCode .allOn, [])
  | .modeoff => some (Config.cmdCode .allOff, [])
  | .sleep => some (Config.cmdCode .sleepOn, [])
  | .wake => some (Config.cmdCode .sleepOff, [])
  | .graydef => some (Config.cmdCode .grayDefault, [])
  | .graytab t =>
    if 16 ≤ (streamOf s.env t).length then some (Config.cmdCode .grayTable, (streamOf s.env t).take 16) else none
  | .setcon v => some (Config.cmdCode .contrast, [v])
  | .setbri v => some (Config.cmdCode .brightness, [v &&& 0x0F])
  | .init .. | .deinit | .hwreset | .setpix .. | .getpix .. | .fill .. | .flush | .hline .. | .vline .. | .bmp4 ..
  | .bmp8 .. | .char .. | .str .. => none
  | .cmdUnlock .. | .cmdSleepOn | .cmdClock .. | .cmdFuncsel .. | .cmdPrechargeV .. | .cmdPrecharge2 .. | .cmdVcomh ..
  | .cmdEnh1 .. | .cmdEnh2 .. | .cmdMux .. | .cmdExitPartial | .cmdSetCol .. | .cmdSetRow .. | .cmdOffset ..
  | .cmdStartline .. | .cmdRemap .. | .cmdSleepOff | .cmdGrayDefault | .cmdContrast .. | .cmdBrightness ..
  | .cmdWriteRam .. | .cmdNormal | .cmdInvert | .cmdAllOn | .cmdAllOff | .cmdGrayTable .. => none

/-- The marks a window request leaves the controller after its command: one where an operand is 128 or more
(93_implementation_defined.md U6, log 35). -/
def wireMarks (i : Instr) : List BusEvent :=
  match i with
  | .colwin a b => if 128 ≤ a.toNat ∨ 128 ≤ b.toNat then [.wrappedColumns] else []
  | .rowwin a b => if 128 ≤ a.toNat ∨ 128 ≤ b.toNat then [.wrappedRows] else []
  | _ => []

/-! ### Errors -/

/-- The record `FAULT` after one of the spec's faults or a transport failure `e`: the first one stays (10_state.md R29,
60_exceptions.md R234). -/
def faultRecord (s : State) (e : Err) : Option Err := if s.fault = none then some e else s.fault

/-- The state of a request that raised a recorded error `e` before it changed anything (60_exceptions.md R243). -/
def raisedIn (s : State) (e : Err) : State := { s with result := .raised e, fault := faultRecord s e }

/-! ### Pixels -/

/-- The low nibble of a colour (30_encoding.md R83). -/
def colorNibble (c : Color) : BitVec 4 := c.extractLsb' 0 4

/-- Nibble `k` of a 4-bit source, high nibble of each byte first (30_encoding.md R89). -/
def nibbleAt (bs : List Byte) (k : Nat) : BitVec 4 :=
  if k % 2 = 0 then (bs.getD (k / 2) 0).extractLsb' 4 4 else (bs.getD (k / 2) 0).extractLsb' 0 4

/-- Pixel `k` of an 8-bit source: the high nibble of byte `k` (30_encoding.md R90). -/
def highAt (bs : List Byte) (k : Nat) : BitVec 4 := (bs.getD k 0).extractLsb' 4 4

/-- Pixel `k` of a glyph bitmap, in the format `GLYPH_FMT` names (44_blitter.md R197). -/
def glyphPixel (bs : List Byte) (k : Nat) : BitVec 4 :=
  match Config.glyphFmt with
  | .four => nibbleAt bs k
  | .eight => highAt bs k

/-- Which byte of a glyph bitmap pixel `k` comes from, in the format `GLYPH_FMT` names (30_encoding.md R89, R90). -/
def glyphByte (k : Nat) : Nat :=
  match Config.glyphFmt with
  | .four => k / 2
  | .eight => k

/-- How many bytes a bitmap of `n` pixels has in the format `GLYPH_FMT` names (30_encoding.md R89, R90). -/
def glyphBytes (n : Nat) : Nat :=
  match Config.glyphFmt with
  | .four => (n + 1) / 2
  | .eight => n

/-- The rectangle `[x, x+w) x [y, y+h)`. -/
def inRect (x y w h px py : Nat) : Bool :=
  decide (x ≤ px) && decide (px < x + w) && decide (y ≤ py) && decide (py < y + h)

/-- The row-major number of a pixel of the rectangle at `(x, y)` with rows of `w` pixels (44_blitter.md R191). -/
def rectPixel (x y w px py : Nat) : Nat := (py - y) * w + (px - x)

/-- The first `n` pixels of the rectangle at `(x, y)`, in row-major order. -/
def inRectBefore (n x y w h px py : Nat) : Bool := inRect x y w h px py && decide (rectPixel x y w px py < n)

/-- Pixel `n` is the one that ends the drawing of a `w` by `h` bitmap at `(x, y)`, with the error `e`; pixel `k` comes from byte
`byteOf k` of the stream. Every pixel before it is in range and has its byte; its own byte is missing, or it is out of range:
the byte is asked for first (44_blitter.md R203, 60_exceptions.md R242). -/
def StopsAt (s : State) (x y : Nat) (r : Ref) (w h : Nat) (byteOf : Nat → Nat) (n : Nat) (e : Err) : Prop :=
  n < w * h ∧
    (∀ k, k < n → x + k % w < s.resX.toNat ∧ y + k / w < s.resY.toNat ∧ byteOf k < (streamOf s.env r).length) ∧
    (((streamOf s.env r).length ≤ byteOf n ∧ e = .sourceUnderrun r (byteOf n)) ∨
      (byteOf n < (streamOf s.env r).length ∧ (s.resX.toNat ≤ x + n % w ∨ s.resY.toNat ≤ y + n / w) ∧
        e = .coordOutOfRange (x + n % w) (y + n / w)))

/-- `t` is `s` with exactly the pixels inside drawn, and with `t`'s outcome: every other register, the trace, the wire, the
controller and the environment are `s`'s; every other nibble of the framebuffer, padding nibbles among them (`2*PW`
nibbles a row, 20_memory.md R57), and every byte that holds no drawn pixel reads as in `s`; the buffer keeps its size. -/
def DrawsExactly (s t : State) (inside : Nat → Nat → Bool) (color : Nat → Nat → BitVec 4) : Prop :=
  t = { s with fb := t.fb, result := t.result, fault := t.fault } ∧ fbSize t = fbSize s ∧
    (∀ px py, px < 2 * s.pw.toNat → py < s.resY.toNat →
      pix t px py = if inside px py then some (color px py) else pix s px py) ∧
    ∀ j, (∀ px py, inside px py = true → j ≠ pixelIndex s.pw.toNat px py) → readFb t j = readFb s j

/-! ### Glyphs and strings -/

/-- The glyphs STR draws: cursor and code of each, in order (44_blitter.md R200, R201). -/
def stringPlan (resX : Nat) (f : Font) : List Byte → Nat → List (Nat × Byte)
  | [], _ => []
  | ch :: rest, cur =>
    if ch = 0x0A ∨ resX ≤ cur then []
    else if validCode f ch then (cur, ch) :: stringPlan resX f rest (cur + (glyphOf f ch).w.toNat)
    else stringPlan resX f rest cur

/-- A glyph drawn at `(x, y)` stays in range and its bitmap is there (70_reset_and_hazards.md R279). -/
def glyphFits (s : State) (x y : Nat) (g : Glyph) : Prop :=
  (g.w.toNat * g.h.toNat = 0 ∨ (x + g.w.toNat ≤ s.resX.toNat ∧ y + g.h.toNat ≤ s.resY.toNat)) ∧
    glyphBytes (g.w.toNat * g.h.toNat) ≤ (streamOf s.env g.bmp).length

/-- The glyph of the plan whose rectangle holds the pixel. -/
def planAt (f : Font) (y : Nat) (plan : List (Nat × Byte)) (px py : Nat) : Option (Nat × Byte) :=
  plan.find? fun p => inRect p.1 y (glyphOf f p.2).w.toNat (glyphOf f p.2).h.toNat px py

/-- The colour the plan gives a pixel. -/
def planColor (s : State) (f : Font) (y : Nat) (plan : List (Nat × Byte)) (px py : Nat) : BitVec 4 :=
  match planAt f y plan px py with
  | some p => glyphPixel (streamOf s.env (glyphOf f p.2).bmp) (rectPixel p.1 y (glyphOf f p.2).w.toNat px py)
  | none => 0

/-! ### Flush and construction -/

/-- The bytes of the framebuffer in index order (20_memory.md R52). -/
def fbPayload (s : State) : List Byte := (List.range s.bsz.toNat).map fun j => (readFb s j).getD 0

/-- The three commands of a flush, with the bytes of 42_window.md R166 (43_framebuffer.md R179). -/
def flushSends (s : State) : List (Byte × List Byte) :=
  [(Config.cmdCode .setCol, [28, BitVec.ofNat 8 (27 + s.pw.toNat)]),
   (Config.cmdCode .setRow, [0, BitVec.ofNat 8 (s.resY.toNat - 1)]),
   (Config.cmdCode .writeRam, fbPayload s)]

/-- The `TX` events of a list of completed `Send` calls. -/
def sendsEvents (l : List (Byte × List Byte)) : List Event := l.flatMap fun c => sentEvents c.1 c.2

/-- The wire of a list of completed `Send` calls. -/
def sendsWire (l : List (Byte × List Byte)) : List BusEvent := l.map fun c => .command c.1 c.2

/-- The phases of a list of `Send` calls in order: what a failure there reports, with the number of calls completed before
it (40_command_channel.md R112). -/
def sendsPhases (l : List (Byte × List Byte)) : List (Nat × Phase × Byte) :=
  l.zipIdx.flatMap fun c =>
    if c.1.2 = [] then [(c.2, .command, c.1.1)] else [(c.2, .command, c.1.1), (c.2, .payload, c.1.1)]

/-- What the controller meets of the phase that failed, after `done` completed calls of a list (60_exceptions.md R234; the form
is log 3, 18). -/
def brokenAfter (l : List (Byte × List Byte)) (done : Nat) (ph : Phase) : List BusEvent :=
  l[done]?.toList.map fun c => .brokenPhase c.1 (if ph = .payload then c.2 else [])

/-- The 24 commands of the init program for a geometry, each with its entry number (41_reset_init.md R130,
95_test_vectors.md P1). -/
def initEntries (resX resY : Nat) : List (Nat × Byte × List Byte) :=
  let columns : List Byte := [28, BitVec.ofNat 8 (27 + (resX + 1) / 2)]
  let rows : List Byte := [0, BitVec.ofNat 8 (resY - 1)]
  [(0, Config.cmdCode .unlock, [Config.kUnlock]),
   (1, Config.cmdCode .sleepOn, []),
   (2, Config.cmdCode .clock, [Config.kClock]),
   (3, Config.cmdCode .funcsel, [Config.kFuncsel]),
   (4, Config.cmdCode .prechargeV, [Config.kPrechargeV]),
   (5, Config.cmdCode .precharge2, [Config.kPrecharge2]),
   (6, Config.cmdCode .vcomh, [Config.kVcomh]),
   (7, Config.cmdCode .enh1, [Config.kEnh1Byte 0, Config.kEnh1Byte 1]),
   (8, Config.cmdCode .enh2, [Config.kEnh2Byte 0, Config.kEnh2Byte 1]),
   (9, Config.cmdCode .mux, [BitVec.ofNat 8 (resY - 1)]),
   (10, Config.cmdCode .exitPartial, []),
   (11, Config.cmdCode .setCol, columns),
   (12, Config.cmdCode .setRow, rows),
   (13, Config.cmdCode .offset, [0]),
   (14, Config.cmdCode .startline, [0]),
   (15, Config.cmdCode .remap, [Config.kRemapByte 0, Config.kRemapByte 1]),
   (16, Config.cmdCode .sleepOff, []),
   (17, Config.cmdCode .grayDefault, []),
   (18, Config.cmdCode .contrast, [Config.kContrastDefault]),
   (19, Config.cmdCode .brightness, [Config.kBrightnessDefault &&& 0x0F]),
   (21, Config.cmdCode .setCol, columns),
   (22, Config.cmdCode .setRow, rows),
   (23, Config.cmdCode .writeRam, List.replicate ((resX + 1) / 2 * resY) 0),
   (24, Config.cmdCode .normal, [])]

/-- The `Send` calls of the init program. -/
def initSends (resX resY : Nat) : List (Byte × List Byte) := (initEntries resX resY).map fun e => e.2

/-- The events of INIT before its program: pin directions and the reset pulse (95_test_vectors.md P1, events 1 to 7). -/
def initPrelude : List Event :=
  [.dircfg, .pin (.rst .a), .delay .hold1, .pin (.rst .r), .delay .hold2, .pin (.rst .a), .delay .settle]

/-- INIT may begin: not Constructed and a geometry in the range of 00_scope.md R7. -/
abbrev MayInit (s : State) (resX resY : Coord) : Prop :=
  s.life ≠ .constructed ∧ 1 ≤ resX.toNat ∧ resX.toNat ≤ 256 ∧ 1 ≤ resY.toNat ∧ resY.toNat ≤ 128

/-- The environment's answers in the script, an exhausted script answering `Ok` (log 1). -/
abbrev allocateOk (s : State) : Prop := s.env.allocate.headD .ok = .ok
abbrev attachOk (s : State) : Prop := s.env.attach.headD .ok = .ok

/-- The environment after INIT's acquisitions and `n` phases. -/
def envAfterInit (s : State) (n : Nat) : Env :=
  { s.env with
    allocate := s.env.allocate.tail, attach := s.env.attach.tail, transmit := s.env.transmit.drop n }

/-! ### The controller -/

/-- The controller after a register command: the registers given, and no other part of the state but the model's counter;
the write pointer is then anywhere (20_memory.md R72). -/
def withRegs (s : State) (r : CtrlRegs) : State :=
  { s with ctrl := { s.ctrl with regs := r, pointer := .anywhere }, freeCount := s.freeCount + 1 }

/-- The controller after a configuration command in its sleep: the register changed, now and for its waking
(70_reset_and_hazards.md R263, R273), and no other part of the state but the model's counter; the write pointer is then
anywhere (20_memory.md R72). -/
def configured (s : State) (f : CtrlRegs → CtrlRegs) : State :=
  { s with
    ctrl := { s.ctrl with regs := f s.ctrl.regs, onWaking := f s.ctrl.onWaking, pointer := .anywhere }
    freeCount := s.freeCount + 1 }

/-- The active window is one of which 20_memory.md R77 speaks: within the columns 28 to 155 and the rows 0 to 127 of the
geometry range of 00_scope.md R7, not reversed, and not set by an operand that wrapped (93_implementation_defined.md U6). -/
abbrev Ctrl.KnownWindow (c : Ctrl) : Prop :=
  28 ≤ c.window.colStart.toNat ∧ c.window.colStart ≤ c.window.colStop ∧ c.window.colStop.toNat ≤ 155 ∧
    c.window.rowStart ≤ c.window.rowStop ∧ c.window.rowStop.toNat ≤ 127 ∧ c.columnsBarred = false ∧ c.rowsBarred = false

end Sys2Proof.Machine
end

