-- ==== Sys2Proof/Certificates/Slice0/Obligations.lean ====
section
/-! DEFINITION. The statements of this row, each from the numbered rules of spec/. -/

open Sys2Proof Sys2Proof.Machine

/-! ## Encoding -/

/-- Decoding what the encoder writes gives the instruction back, for every well-formed instruction of both formats
(30_encoding.md R85, R92, R94 to R96). -/
def Obligations.DecodeOfEncode : Prop :=
  ∀ i : Instr, i.wellFormed = true → decode (encode i) = .ok i

/-- What decodes encodes back to itself on the bits an instruction has: the command forms whole; of a request word, its
opcode and its used slots, byte operands by their low 8 bits (30_encoding.md R96, R98). -/
def Obligations.EncodeOfDecode : Prop :=
  (∀ (code : Byte) (p : List Byte) (i : Instr),
    decode (.command code p) = .ok i → i.wellFormed = true ∧ encode i = .command code p) ∧
  ∀ (w : ReqWord) (i : Instr), decode (.request w) = .ok i →
    i.wellFormed = true ∧ ∃ w', encode i = .request w' ∧ decode (.request w') = .ok i ∧ fieldOp w' = fieldOp w

/-- Request words written out in 95_test_vectors.md, and payloads of its P1 after their command codes, decode to what they stand
for. The codes are named and not written (92_eei_decisions.md D9, log 13); the payload length of `ENH_1` is log 28. -/
def Obligations.VectorWordsDecode : Prop :=
  decode (.request 0x0000004001000002000101) = .ok (.init 1 2 256 64) ∧
  decode (.request 0x0000000000070003000220) = .ok (.setpix 2 3 7) ∧
  decode (.request 0x0002000300100000000032) = .ok (.bmp4 0 0 0x10 3 2) ∧
  decode (.request 0x000000000001001400C110) = .ok (.send 0xC1 0x14 1) ∧
  decode (.request 0x0000000000000000001F49) = .ok (.setbri 0x1F) ∧
  decode (.command (Config.cmdCode .setCol) [0x1C, 0x9B]) = .ok (.cmdSetCol 0x1C 0x9B) ∧
  decode (.command (Config.cmdCode .enh1) [0xA0, 0xFD]) = .ok (.cmdEnh1 [0xA0, 0xFD])

/-- Every `op` outside the 26 of R95 raises `IllegalRequest(op)` at the next step, with no change but the request taken,
the outcome and the record (30_encoding.md R98, 60_exceptions.md R238). -/
def Obligations.UnassignedOpcodeRaises : Prop :=
  ∀ (s : State) (w : ReqWord) (rest : List ReqWord), s.wire = [] → s.port = w :: rest →
    (∀ o : Op, Config.opcode o ≠ fieldOp w) →
    step s = .next (raisedIn { s with port := rest } (.illegalRequest (fieldOp w)))

/-! ## The step -/

/-- A step runs the decoded instruction: CTRL the first command of the wire; with an empty wire, PPFB the first request of
the port; each taken from its list. -/
def Obligations.StepRunsDecoded : Prop :=
  (∀ (s : State) (i : Instr) (code : Byte) (p : List Byte) (rest : List BusEvent),
    s.wire = .command code p :: rest → decode (.command code p) = .ok i → step s = exec i { s with wire := rest }) ∧
  (∀ (s : State) (i : Instr) (w : ReqWord) (rest : List ReqWord),
    s.wire = [] → s.port = w :: rest → decode (.request w) = .ok i → step s = exec i { s with port := rest }) ∧
  ∀ s : State, s.wire = [] → s.port = [] → step s = .next s

/-- An instruction placed by its form is what the next step runs. -/
def Obligations.PlacedFormRuns : Prop :=
  ∀ (s : State) (i : Instr), i.wellFormed = true →
    ∃ t, step (placeForm (encode i) s) = exec i t ∧
      (requestOp i = none → t = s) ∧ (requestOp i ≠ none → t = { s with wire := [] })

/-- The step keeps the machine coherent: the geometry registers agree with each other and with the buffer, the binding and
the buffer exist in Constructed only, `SEQ_PC` stays 0 to 25, chip select is deasserted between requests, and both
memories keep their canonical form. -/
def Obligations.StepKeepsCoherent : Prop :=
  ∀ s t : State, Coherent s → step s = .next t → Coherent t

/-- The state after reset is coherent. -/
def Obligations.ResetIsCoherent : Prop := Coherent State.reset

/-- The values 10_state.md R47 gives for the state before the first INIT. -/
def Obligations.ResetValues : Prop :=
  State.reset.life = .unconstructed ∧ State.reset.bound = false ∧ State.reset.pincfg = false ∧
    State.reset.fault = none ∧ State.reset.trace = [] ∧ ∀ j, readFb State.reset j = none

/-- `FAULT` "holds the first fault raised and is never cleared by a later request" (10_state.md R29). -/
def Obligations.FaultRecordStays : Prop :=
  ∀ (s t : State) (e : Err), s.fault = some e → step s = .next t → t.fault = some e

/-- A step only appends to the output trace, and leaves the sources alone (10_state.md R40, R43). -/
def Obligations.TraceOnlyGrows : Prop :=
  ∀ s t : State, step s = .next t →
    s.trace <+: t.trace ∧ t.env.streams = s.env.streams ∧ t.env.fonts = s.env.fonts

/-- INIT is the only instruction that sets Constructed and DEINIT the only one that sets TornDown (10_state.md R28,
60_exceptions.md R250). -/
def Obligations.LifecycleMoves : Prop :=
  ∀ (i : Instr) (s t : State), exec i s = .next t → s.life ≠ t.life →
    (∃ tr p x y, i = .init tr p x y ∧ s.life ≠ .constructed ∧ t.life = .constructed) ∨
    (i = .deinit ∧ s.life = .constructed ∧ t.life = .tornDown)

/-- Every instruction but INIT and DEINIT leaves the geometry registers, the lifecycle, the binding, the pin configuration,
`SEQ_PC` and the reset line's level, HWRESET's, unchanged (10_state.md R22, R25, R30). -/
def Obligations.GeometryIsInitsAlone : Prop :=
  ∀ (i : Instr) (s t : State), exec i s = .next t → (∀ tr p x y, i ≠ .init tr p x y) → i ≠ .deinit →
    t.resX = s.resX ∧ t.resY = s.resY ∧ t.pw = s.pw ∧ t.bsz = s.bsz ∧ t.life = s.life ∧ t.bound = s.bound ∧
      t.pincfg = s.pincfg ∧ t.seqPc = s.seqPc ∧ fbSize t = fbSize s ∧ (i ≠ .hwreset → t.rst = s.rst)

/-- A request changes nothing of CTRL by itself: what it sends is on the wire (20_memory.md R69, log 3). -/
def Obligations.RequestsLeaveController : Prop :=
  ∀ (i : Instr) (s t : State), requestOp i ≠ none → exec i s = .next t →
    t.ctrl = s.ctrl ∧ t.port = s.port ∧ s.wire <+: t.wire

/-- A command changes CTRL only: every register, the framebuffer, the trace, the port, the wire and the environment of PPFB
are unchanged (10_state.md R33, R41). -/
def Obligations.CommandsLeaveBlock : Prop :=
  ∀ (i : Instr) (s t : State), requestOp i = none → exec i s = .next t →
    t = { s with ctrl := t.ctrl, freeCount := t.freeCount }

/-! ## Errors -/

/-- Every request but INIT raises `LifecycleViolation` outside Constructed, and INIT raises it in Constructed; the state is
unchanged but for the outcome and the record (60_exceptions.md R236, R250). -/
def Obligations.LifecycleViolations : Prop :=
  (∀ (i : Instr) (s : State) (op : Op), requestOp i = some op → op ≠ .init → s.life ≠ .constructed →
    exec i s = .next (raisedIn s (.lifecycleViolation op))) ∧
  ∀ (s : State) (tr p : Ref) (x y : Coord), s.life = .constructed →
    exec (.init tr p x y) s = .next (raisedIn s (.lifecycleViolation .init))

/-- INIT with a geometry outside 1 to 256 by 1 to 128 raises `GeometryRefused` with the state unchanged; and no other
request, and INIT with no other geometry, raises it (41_reset_init.md R128, 60_exceptions.md R239). -/
def Obligations.GeometryRefusals : Prop :=
  (∀ (s : State) (tr p : Ref) (x y : Coord), s.life ≠ .constructed →
    (x.toNat = 0 ∨ 256 < x.toNat ∨ y.toNat = 0 ∨ 128 < y.toNat) →
    exec (.init tr p x y) s = .next (raisedIn s (.geometryRefused x y))) ∧
  ∀ (i : Instr) (s t : State) (x y : Coord), requestOp i ≠ none → exec i s = .next t →
    t.result = .raised (.geometryRefused x y) →
    (∃ tr p, i = .init tr p x y) ∧ (x.toNat = 0 ∨ 256 < x.toNat ∨ y.toNat = 0 ∨ 128 < y.toNat)

/-- `AllocationFailure` and `BusAttachFailure` leave the machine as before the request, but for the outcome and the answers
used; allocation is asked first (60_exceptions.md R232, R233, 41_reset_init.md R127). -/
def Obligations.AcquisitionFailures : Prop :=
  ∀ (s : State) (tr p : Ref) (x y : Coord), MayInit s x y →
    (s.env.allocate.headD .ok = .fail → exec (.init tr p x y) s =
      .next { s with result := .raised .allocationFailure, env := { s.env with allocate := s.env.allocate.tail } }) ∧
    (allocateOk s → s.env.attach.headD .ok = .fail → exec (.init tr p x y) s =
      .next { s with
        result := .raised .busAttachFailure
        env := { s.env with allocate := s.env.allocate.tail, attach := s.env.attach.tail } })

/-- The cause codes of 60_exceptions.md R240. -/
def Obligations.CauseCodes : Prop :=
  (∀ v w, (Result.ok).code = 0 ∧ (Result.okPixel v).code = 0 ∧ (Result.okAdvance w).code = 0) ∧
  (∀ e, (Result.raised e).code = e.code) ∧
  Err.allocationFailure.code = 1 ∧ Err.busAttachFailure.code = 2 ∧ (∀ p c, (Err.transportFailure p c).code = 3) ∧
  (∀ x y, (Err.coordOutOfRange x y).code = 4) ∧ (∀ o, (Err.lifecycleViolation o).code = 5) ∧
  (∀ r i, (Err.sourceUnderrun r i).code = 6) ∧ (∀ o, (Err.illegalRequest o).code = 7) ∧
  ∀ x y, (Err.geometryRefused x y).code = 8

/-! ## The channel, the windows and the façade -/

/-- A request that makes one `Send` completes with exactly that `Send`, when the transport answers `Ok`: SEND, COLWIN,
ROWWIN, MODENORM, MODEINV, MODEON, MODEOFF, SLEEP, WAKE, GRAYDEF, GRAYTAB, SETCON, SETBRI (40_command_channel.md R110,
R112, R113, R116, 42_window.md R160, R163, 45_facade.md R210 to R219). That the answers stand in a script is the model's choice
(log 1), and so is that the controller is unchanged and the command stands on the wire, with a mark where a window operand
wraps, when the request has ended (log 3, 35). -/
def Obligations.SingleSendsComplete : Prop :=
  ∀ (i : Instr) (s : State) (code : Byte) (bs : List Byte), s.life = .constructed → sends i s = some (code, bs) →
    transportOk (sentEvents code bs).length s = true →
    exec i s = .next { afterSend code bs s with
      wire := s.wire ++ .command code bs :: wireMarks i
      result := .ok }

/-- A failing phase ends such a request: its event is in the trace, nothing later is sent, and the failure carries the
phase and the code (40_command_channel.md R112, R115, 60_exceptions.md R234). Recording it in `FAULT` is log 8; that the
controller is unchanged and the broken phase stands on the wire is the model's choice (log 3, 18). -/
def Obligations.SingleSendsFail : Prop :=
  ∀ (i : Instr) (s : State) (code : Byte) (bs : List Byte) (rest : List PhaseAnswer),
    s.life = .constructed → sends i s = some (code, bs) →
    (s.env.transmit = .fail :: rest → exec i s =
      .next (raisedIn
        { s with
          dc := .command, cs := .deasserted
          trace := s.trace ++ [.tx false [code]]
          wire := s.wire ++ [.brokenPhase code []], env := { s.env with transmit := rest } }
        (.transportFailure .command code))) ∧
    (bs ≠ [] → s.env.transmit = .ok :: .fail :: rest → exec i s =
      .next (raisedIn
        { s with
          dc := .data, cs := .deasserted
          trace := s.trace ++ [.tx false [code], .tx true bs]
          wire := s.wire ++ [.brokenPhase code bs], env := { s.env with transmit := rest } }
        (.transportFailure .payload code)))

/-- A transport that never answers stops the machine at that phase: either phase of a one-command request, each of the six of
FLUSH, DEINIT's one and each of the 43 of INIT (93_implementation_defined.md U8). That the answers stand in a script is log 1. -/
def Obligations.SilentTransportStops : Prop :=
  (∀ (i : Instr) (s : State) (code : Byte) (bs : List Byte) (rest : List PhaseAnswer),
    s.life = .constructed → sends i s = some (code, bs) →
    (s.env.transmit = .never :: rest → exec i s = .fault .transportSilent) ∧
    (bs ≠ [] → s.env.transmit = .ok :: .never :: rest → exec i s = .fault .transportSilent)) ∧
  (∀ (s : State) (k : Nat) (rest : List PhaseAnswer), Ready s → k < 6 →
    s.env.transmit = List.replicate k .ok ++ .never :: rest → exec .flush s = .fault .transportSilent) ∧
  (∀ (s : State) (rest : List PhaseAnswer), s.life = .constructed → s.env.transmit = .never :: rest →
    exec .deinit s = .fault .transportSilent) ∧
  ∀ (s : State) (tr p : Ref) (x y : Coord) (k : Nat) (rest : List PhaseAnswer), MayInit s x y → allocateOk s →
    attachOk s → k < 43 → s.env.transmit = List.replicate k .ok ++ .never :: rest →
    exec (.init tr p x y) s = .fault .transportSilent

/-- SEND and GRAYTAB with a stream too short raise `SourceUnderrun` at the first missing byte, before anything is sent
(40_command_channel.md R110, 45_facade.md R217, 60_exceptions.md R237, R242). -/
def Obligations.ShortPayloadsRaise : Prop :=
  (∀ (s : State) (code : Byte) (r : Ref) (n : Coord), s.life = .constructed → (streamOf s.env r).length < n.toNat →
    exec (.send code r n) s = .next (raisedIn s (.sourceUnderrun r (streamOf s.env r).length))) ∧
  ∀ (s : State) (r : Ref), s.life = .constructed → (streamOf s.env r).length < 16 →
    exec (.graytab r) s = .next (raisedIn s (.sourceUnderrun r (streamOf s.env r).length))

/-- The pin-level expansion of a phase: `DC` set before `CS` is asserted and not changed before it is deasserted
(30_encoding.md R87). -/
def Obligations.PhaseExpansion : Prop :=
  ∀ bs : List Byte,
    Event.expand (.tx false bs) =
      [.pin (.dc .command), .pin (.cs .asserted), .bytes bs, .pin (.cs .deasserted)] ∧
    Event.expand (.tx true bs) = [.pin (.dc .data), .pin (.cs .asserted), .bytes bs, .pin (.cs .deasserted)]

/-! ## The packed pixel and the framebuffer -/

/-- The encoder, the decoder and their laws (30_encoding.md R81, R82). -/
def Obligations.PixelCodecLaws : Prop :=
  ∀ (b : Byte) (x x' : Nat) (c c' : Color),
    put b x c = (if x % 2 = 0 then ((c &&& 0x0F) <<< 4) ||| (b &&& 0x0F) else (b &&& 0xF0) ||| (c &&& 0x0F)) ∧
    get b x = (if x % 2 = 0 then b.extractLsb' 4 4 else b.extractLsb' 0 4) ∧
    get (put b x c) x = colorNibble c ∧ (x % 2 ≠ x' % 2 → get (put b x c) x' = get b x') ∧
      put (put b x c) x c' = put b x c' ∧ put b x ((get b x).setWidth 8) = b

/-- The fill byte: the shifted colour and its low nibble cut to a byte, in its three forms, with the rule's examples
(30_encoding.md R84). -/
def Obligations.FillByteLaw : Prop :=
  (∀ c : Color,
    (fillByte c).toNat = ((c.toNat <<< 4) ||| (c.toNat &&& 0xF)) % 256 ∧
    (fillByte c).toNat = c.toNat % 16 * 16 + c.toNat % 16 ∧ (fillByte c).toNat = c.toNat % 16 * 17) ∧
  fillByte 0x07 = 0x77 ∧ fillByte 0x3C = 0xCC ∧ fillByte 0xF0 = 0x00

/-- The framebuffer map (20_memory.md R63): the index of an in-range pixel, which lies below `BSZ`; the inverse, in which
the low nibble of a byte past the width belongs to no pixel; and two different pixels never share a nibble. -/
def Obligations.FramebufferMap : Prop :=
  ∀ s : State, GeometryCoherent s →
    (∀ x y, x < s.resX.toNat → y < s.resY.toNat →
      pixelIndex s.pw.toNat x y = x / 2 + y * s.pw.toNat ∧ pixelIndex s.pw.toNat x y < s.bsz.toNat) ∧
    (∀ i y c, i < s.bsz.toNat → y = i / s.pw.toNat → c = i % s.pw.toNat →
      2 * c < s.resX.toNat ∧ y < s.resY.toNat ∧ pixelIndex s.pw.toNat (2 * c) y = i ∧
        (2 * c + 1 < s.resX.toNat → pixelIndex s.pw.toNat (2 * c + 1) y = i) ∧
        (s.resX.toNat ≤ 2 * c + 1 → ∀ x' y', x' < s.resX.toNat → y' < s.resY.toNat →
          pixelIndex s.pw.toNat x' y' = i → x' % 2 = 0)) ∧
    ∀ x y x' y', x < s.resX.toNat → y < s.resY.toNat → x' < s.resX.toNat → y' < s.resY.toNat →
      pixelIndex s.pw.toNat x y = pixelIndex s.pw.toNat x' y' → x % 2 = x' % 2 → x = x' ∧ y = y'

/-- SETPIX in range writes the colour's low nibble at its pixel, the other nibble of that byte and every other byte
unchanged, and nothing else of the machine but the outcome (43_framebuffer.md R170, R171, R174). -/
def Obligations.SetpixWritesOneNibble : Prop :=
  ∀ (s : State) (x y : Coord) (c : Color), Ready s → x.toNat < s.resX.toNat → y.toNat < s.resY.toNat →
    ∃ t, exec (.setpix x y c) s = .next t ∧ t.result = .ok ∧ t.fault = s.fault ∧
      DrawsExactly s t (fun px py => decide (px = x.toNat) && decide (py = y.toNat)) (fun _ _ => colorNibble c) ∧
      (∀ px py, pix t px py = (readFb t (px / 2 + py * s.pw.toNat)).map fun b => get b px) ∧
      ∀ b, readFb s (pixelIndex s.pw.toNat x.toNat y.toNat) = some b →
        readFb t (pixelIndex s.pw.toNat x.toNat y.toNat) =
          some (if x.toNat % 2 = 0 then (colorNibble c ++ b.extractLsb' 0 4 : BitVec 8)
            else (b.extractLsb' 4 4 ++ colorNibble c : BitVec 8))

/-- GETPIX in range answers the pixel and changes nothing but the outcome (43_framebuffer.md R173). -/
def Obligations.GetpixReadsOneNibble : Prop :=
  ∀ (s : State) (x y : Coord), Ready s → x.toNat < s.resX.toNat → y.toNat < s.resY.toNat →
    ∃ b, readFb s (x.toNat / 2 + y.toNat * s.pw.toNat) = some b ∧
      exec (.getpix x y) s = .next { s with
        result := .okPixel (if x.toNat % 2 = 0 then b.extractLsb' 4 4 else b.extractLsb' 0 4) }

/-- SETPIX and GETPIX out of range raise `CoordOutOfRange` with the offending coordinates and change no byte
(20_memory.md R56, 60_exceptions.md R235). -/
def Obligations.PixelsOutOfRangeRaise : Prop :=
  ∀ (s : State) (x y : Coord), s.life = .constructed → (s.resX.toNat ≤ x.toNat ∨ s.resY.toNat ≤ y.toNat) →
    (∀ c, exec (.setpix x y c) s = .next (raisedIn s (.coordOutOfRange x.toNat y.toNat))) ∧
    exec (.getpix x y) s = .next (raisedIn s (.coordOutOfRange x.toNat y.toNat))

/-- FILL sets every byte, both nibbles the colour's low nibble, and changes nothing else but the outcome
(43_framebuffer.md R176, R177). -/
def Obligations.FillSetsEveryByte : Prop :=
  ∀ (s : State) (c : Color), Ready s →
    ∃ t, exec (.fill c) s = .next t ∧ t = { s with fb := t.fb, result := .ok } ∧
      ∀ j, readFb t j = if j < s.bsz.toNat then some (BitVec.ofNat 8 (c.toNat % 16 * 17)) else none

/-- FLUSH sends the full windows and then the whole buffer in index order: six events; the framebuffer is read and not
changed (43_framebuffer.md R179, 42_window.md R166, 20_memory.md R52). That the controller is unchanged and the three commands
stand on the wire when FLUSH has ended is the model's choice (log 3), and so is the script of answers (log 1). -/
def Obligations.FlushSendsTheBuffer : Prop :=
  ∀ s : State, Ready s → transportOk 6 s = true →
    exec .flush s = .next { s with
      dc := .data, cs := .deasserted
      trace := s.trace ++
        [.tx false [Config.cmdCode .setCol], .tx true [28, BitVec.ofNat 8 (27 + s.pw.toNat)],
         .tx false [Config.cmdCode .setRow], .tx true [0, BitVec.ofNat 8 (s.resY.toNat - 1)],
         .tx false [Config.cmdCode .writeRam], .tx true (fbPayload s)]
      wire := s.wire ++ sendsWire (flushSends s)
      env := { s.env with transmit := s.env.transmit.drop 6 }
      result := .ok }

/-- A FLUSH whose phase `k` fails ends there: the events up to it are sent, no later one, and the framebuffer is intact
(43_framebuffer.md R180, 60_exceptions.md R234). Recording the failure in `FAULT` is log 8; that the controller is unchanged and
the completed commands and the broken phase stand on the wire is the model's choice (log 3, 18). -/
def Obligations.FlushEndsAtFailure : Prop :=
  ∀ (s : State) (k done : Nat) (ph : Phase) (code : Byte) (rest : List PhaseAnswer), Ready s →
    (sendsPhases (flushSends s))[k]? = some (done, ph, code) →
    s.env.transmit = List.replicate k .ok ++ .fail :: rest →
    exec .flush s = .next (raisedIn
      { s with
        dc := if ph = .payload then .data else .command, cs := .deasserted
        trace := s.trace ++ (sendsEvents (flushSends s)).take (k + 1)
        wire := s.wire ++ sendsWire ((flushSends s).take done) ++ brokenAfter (flushSends s) done ph ++ [.brokenFlush]
        env := { s.env with transmit := rest } }
      (.transportFailure ph code))

/-- After a FLUSH that completed and the three steps in which an awake CTRL takes its commands, the controller's memory in
the full window is the framebuffer byte for byte, and no byte of it outside the window has changed (43_framebuffer.md
R181, 20_memory.md R71, R77). The wire and the controller's steps are the model's choice (log 3), that the controller must be
awake is log 17, 19, the numbering of its memory is log 20, and that its lock is not asked is log 33. -/
def Obligations.FlushReachesController : Prop :=
  ∀ s : State, Ready s → transportOk 6 s = true → s.wire = [] → s.ctrl.regs.asleep = false →
    ∃ t u, exec .flush s = .next t ∧ Host.Core.run core 3 t = .next u ∧
      u = { t with wire := [], ctrl := u.ctrl, freeCount := u.freeCount } ∧ u.ctrl.regs = s.ctrl.regs ∧
      (∀ r c, r < s.resY.toNat → c < s.pw.toNat →
        gramRead (gramKey r (28 + c)) u.ctrl.gram = readFb s (r * s.pw.toNat + c)) ∧
      ∀ a, (∀ r c, r < s.resY.toNat → c < s.pw.toNat → a ≠ gramKey r (28 + c)) →
        gramRead a u.ctrl.gram = gramRead a s.ctrl.gram

/-! ## The blitter -/

/-- HLINE in range sets exactly the pixels `[x1, x2)` of row `y`, stop-exclusive (44_blitter.md R185). -/
def Obligations.HlineDrawsItsPixels : Prop :=
  ∀ (s : State) (x1 x2 y : Coord) (c : Color), Ready s → x2.toNat ≤ s.resX.toNat → y.toNat < s.resY.toNat →
    ∃ t, exec (.hline x1 x2 y c) s = .next t ∧ t.result = .ok ∧ t.fault = s.fault ∧
      DrawsExactly s t (fun px py => decide (x1.toNat ≤ px) && decide (px < x2.toNat) && decide (py = y.toNat))
        (fun _ _ => colorNibble c)

/-- VLINE in range sets exactly the pixels of rows `[y1, y2)` in column `x`, stop-exclusive (44_blitter.md R188). -/
def Obligations.VlineDrawsItsPixels : Prop :=
  ∀ (s : State) (y1 y2 x : Coord) (c : Color), Ready s → x.toNat < s.resX.toNat → y2.toNat ≤ s.resY.toNat →
    ∃ t, exec (.vline y1 y2 x c) s = .next t ∧ t.result = .ok ∧ t.fault = s.fault ∧
      DrawsExactly s t (fun px py => decide (px = x.toNat) && decide (y1.toNat ≤ py) && decide (py < y2.toNat))
        (fun _ _ => colorNibble c)

/-- Empty and reversed lines draw nothing and raise nothing, in range or not (44_blitter.md R186, R188). -/
def Obligations.EmptyLinesDoNothing : Prop :=
  ∀ (s : State) (a b k : Coord) (c : Color), s.life = .constructed → b.toNat ≤ a.toNat →
    exec (.hline a b k c) s = .next { s with result := .ok } ∧
    exec (.vline a b k c) s = .next { s with result := .ok }

/-- A line that leaves the display raises at its first pixel out of range, with the pixels before it written
(44_blitter.md R203, 60_exceptions.md R235). -/
def Obligations.LinesStopAtTheEdge : Prop :=
  (∀ (s : State) (x1 x2 y : Coord) (c : Color), Ready s → x1.toNat < x2.toNat →
    (s.resX.toNat < x2.toNat ∨ s.resY.toNat ≤ y.toNat) →
    ∃ t bad, exec (.hline x1 x2 y c) s = .next t ∧
      bad = (if y.toNat < s.resY.toNat then max x1.toNat s.resX.toNat else x1.toNat) ∧
      t.result = .raised (.coordOutOfRange bad y.toNat) ∧ t.fault = faultRecord s (.coordOutOfRange bad y.toNat) ∧
      DrawsExactly s t (fun px py => decide (x1.toNat ≤ px) && decide (px < bad) && decide (py = y.toNat))
        (fun _ _ => colorNibble c)) ∧
  ∀ (s : State) (y1 y2 x : Coord) (c : Color), Ready s → y1.toNat < y2.toNat →
    (s.resY.toNat < y2.toNat ∨ s.resX.toNat ≤ x.toNat) →
    ∃ t bad, exec (.vline y1 y2 x c) s = .next t ∧
      bad = (if x.toNat < s.resX.toNat then max y1.toNat s.resY.toNat else y1.toNat) ∧
      t.result = .raised (.coordOutOfRange x.toNat bad) ∧ t.fault = faultRecord s (.coordOutOfRange x.toNat bad) ∧
      DrawsExactly s t (fun px py => decide (px = x.toNat) && decide (y1.toNat ≤ py) && decide (py < bad))
        (fun _ _ => colorNibble c)

/-- BMP4 draws pixel `k` of the rectangle from nibble `k` of the stream, the phase running on over row boundaries
(44_blitter.md R191, R192, R193). -/
def Obligations.Bmp4DrawsTheStream : Prop :=
  ∀ (s : State) (x y : Coord) (r : Ref) (w h : Coord), Ready s → x.toNat + w.toNat ≤ s.resX.toNat →
    y.toNat + h.toNat ≤ s.resY.toNat → (w.toNat * h.toNat + 1) / 2 ≤ (streamOf s.env r).length →
    ∃ t, exec (.bmp4 x y r w h) s = .next t ∧ t.result = .ok ∧ t.fault = s.fault ∧
      DrawsExactly s t (inRect x.toNat y.toNat w.toNat h.toNat)
        (fun px py => nibbleAt (streamOf s.env r) (rectPixel x.toNat y.toNat w.toNat px py))

/-- BMP8 draws pixel `k` of the rectangle from the high nibble of byte `k` (44_blitter.md R194). -/
def Obligations.Bmp8DrawsTheStream : Prop :=
  ∀ (s : State) (x y : Coord) (r : Ref) (w h : Coord), Ready s → x.toNat + w.toNat ≤ s.resX.toNat →
    y.toNat + h.toNat ≤ s.resY.toNat → w.toNat * h.toNat ≤ (streamOf s.env r).length →
    ∃ t, exec (.bmp8 x y r w h) s = .next t ∧ t.result = .ok ∧ t.fault = s.fault ∧
      DrawsExactly s t (inRect x.toNat y.toNat w.toNat h.toNat)
        (fun px py => highAt (streamOf s.env r) (rectPixel x.toNat y.toNat w.toNat px py))

/-- A bitmap of zero width or height reads, writes and raises nothing (44_blitter.md R196). -/
def Obligations.EmptyBitmapsDoNothing : Prop :=
  ∀ (s : State) (x y : Coord) (r : Ref) (w h : Coord), s.life = .constructed → (w.toNat = 0 ∨ h.toNat = 0) →
    exec (.bmp4 x y r w h) s = .next { s with result := .ok } ∧
    exec (.bmp8 x y r w h) s = .next { s with result := .ok }

/-- A bitmap ends at its first bad pixel `n`, BMP4's, BMP8's and a glyph's: `SourceUnderrun` when its source byte is missing,
otherwise `CoordOutOfRange`; the pixels before it stay written. The glyph is read in the format `GLYPH_FMT` names, whichever
that is (44_blitter.md R193, R197, R203, 60_exceptions.md R242; log 11). -/
def Obligations.BitmapsStopAtTheFirstBadPixel : Prop :=
  ∀ (s : State) (x y : Coord) (n : Nat) (e : Err), Ready s →
    (∀ (r : Ref) (w h : Coord), StopsAt s x.toNat y.toNat r w.toNat h.toNat (· / 2) n e →
      ∃ t, exec (.bmp4 x y r w h) s = .next t ∧ t.result = .raised e ∧ t.fault = faultRecord s e ∧
        DrawsExactly s t (inRectBefore n x.toNat y.toNat w.toNat h.toNat)
          (fun px py => nibbleAt (streamOf s.env r) (rectPixel x.toNat y.toNat w.toNat px py))) ∧
    (∀ (r : Ref) (w h : Coord), StopsAt s x.toNat y.toNat r w.toNat h.toNat (fun k => k) n e →
      ∃ t, exec (.bmp8 x y r w h) s = .next t ∧ t.result = .raised e ∧ t.fault = faultRecord s e ∧
        DrawsExactly s t (inRectBefore n x.toNat y.toNat w.toNat h.toNat)
          (fun px py => highAt (streamOf s.env r) (rectPixel x.toNat y.toNat w.toNat px py))) ∧
    ∀ (ch : Byte) (f : Ref) (g : Glyph), validCode (fontOf s.env f) ch = true → glyphOf (fontOf s.env f) ch = g →
      StopsAt s x.toNat y.toNat g.bmp g.w.toNat g.h.toNat glyphByte n e →
      ∃ t, exec (.char x y ch f) s = .next t ∧ t.result = .raised e ∧ t.fault = faultRecord s e ∧
        DrawsExactly s t (inRectBefore n x.toNat y.toNat g.w.toNat g.h.toNat)
          (fun px py => glyphPixel (streamOf s.env g.bmp) (rectPixel x.toNat y.toNat g.w.toNat px py))

/-- CHAR draws the glyph of a valid code as a bitmap in the format `GLYPH_FMT` and answers its width, whichever format that
is (44_blitter.md R197; log 11). -/
def Obligations.CharDrawsItsGlyph : Prop :=
  ∀ (s : State) (x y : Coord) (ch : Byte) (f : Ref) (g : Glyph), Ready s → validCode (fontOf s.env f) ch = true →
    glyphOf (fontOf s.env f) ch = g → glyphFits s x.toNat y.toNat g →
    ∃ t, exec (.char x y ch f) s = .next t ∧ t.result = .okAdvance g.w ∧ t.fault = s.fault ∧
      DrawsExactly s t (inRect x.toNat y.toNat g.w.toNat g.h.toNat)
        (fun px py => glyphPixel (streamOf s.env g.bmp) (rectPixel x.toNat y.toNat g.w.toNat px py))

/-- "Invalid glyph-table indices are a defined no-op": a code outside the font's range changes nothing and advances 0
(44_blitter.md R197). -/
def Obligations.InvalidCharIsANoOp : Prop :=
  ∀ (s : State) (x y : Coord) (ch : Byte) (f : Ref), s.life = .constructed →
    (ch < (fontOf s.env f).first ∨ (fontOf s.env f).last < ch) →
    exec (.char x y ch f) s = .next { s with result := .okAdvance 0 }

/-- STR draws the glyphs of its plan: one after another by their widths, unknown codes skipped, until a newline, the right
edge or the end of the string, when each of them fits. Where a glyph leaves the display or its bitmap is short, STR ends there
with that error, the glyphs before it and its earlier pixels written (44_blitter.md R200 to R203, 70_reset_and_hazards.md R279;
newline and glyph format: log 28, 11). -/
def Obligations.StrDrawsItsPlan : Prop :=
  (∀ (s : State) (x y : Coord) (r f : Ref) (plan : List (Nat × Byte)), Ready s →
    plan = stringPlan s.resX.toNat (fontOf s.env f) (streamOf s.env r) x.toNat →
    (∀ p ∈ plan, glyphFits s p.1 y.toNat (glyphOf (fontOf s.env f) p.2)) →
    ∃ t, exec (.str x y r f) s = .next t ∧ t.result = .ok ∧ t.fault = s.fault ∧
      DrawsExactly s t (fun px py => (planAt (fontOf s.env f) y.toNat plan px py).isSome)
        (planColor s (fontOf s.env f) y.toNat plan)) ∧
  ∀ (s : State) (x y : Coord) (r f : Ref) (done rest : List (Nat × Byte)) (cur : Nat) (ch : Byte) (g : Glyph) (n : Nat)
    (e : Err), Ready s →
    stringPlan s.resX.toNat (fontOf s.env f) (streamOf s.env r) x.toNat = done ++ (cur, ch) :: rest →
    (∀ p ∈ done, glyphFits s p.1 y.toNat (glyphOf (fontOf s.env f) p.2)) → glyphOf (fontOf s.env f) ch = g →
    StopsAt s cur y.toNat g.bmp g.w.toNat g.h.toNat glyphByte n e →
    ∃ t, exec (.str x y r f) s = .next t ∧ t.result = .raised e ∧ t.fault = faultRecord s e ∧
      DrawsExactly s t
        (fun px py => (planAt (fontOf s.env f) y.toNat done px py).isSome ||
          inRectBefore n cur y.toNat g.w.toNat g.h.toNat px py)
        (fun px py =>
          if inRectBefore n cur y.toNat g.w.toNat g.h.toNat px py then
            glyphPixel (streamOf s.env g.bmp) (rectPixel cur y.toNat g.w.toNat px py)
          else planColor s (fontOf s.env f) y.toNat done px py)

/-! ## Construction, reset pulse and teardown -/

/-- A successful INIT leaves the state of 10_state.md R48: geometry latched, everything cleared, and the trace grown by the
50 events of its program (41_reset_init.md R125, R130, 70_reset_and_hazards.md R262). That the controller is unchanged and the
pulse and the commands stand on the wire when INIT has ended is the model's choice (log 3), and so are the scripts of answers
(log 1). -/
def Obligations.InitConstructs : Prop :=
  ∀ (s : State) (tr p : Ref) (x y : Coord), MayInit s x y → allocateOk s → attachOk s → transportOk 43 s = true →
    ∃ t, exec (.init tr p x y) s = .next t ∧
      t = { s with
        life := .constructed, resX := x, resY := y
        pw := BitVec.ofNat 16 ((x.toNat + 1) / 2), bsz := BitVec.ofNat 32 ((x.toNat + 1) / 2 * y.toNat)
        bound := true, pincfg := true, rst := .a, dc := .command, cs := .deasserted, seqPc := 25
        result := .ok, fb := t.fb
        trace := s.trace ++ initPrelude ++ sendsEvents (initSends x.toNat y.toNat)
        wire := s.wire ++ .resetPulse :: sendsWire (initSends x.toNat y.toNat)
        env := envAfterInit s 43 } ∧
      (sendsEvents (initSends x.toNat y.toNat)).length = 43 ∧
      ∀ j, readFb t j = if j < (x.toNat + 1) / 2 * y.toNat then some 0 else none

/-- Construction fails atomically: when phase `k` of the program fails, no later entry runs, `SEQ_PC` keeps the index of the
failing entry, the lifecycle is what it was, the binding and the buffer are released, and the events sent so far stay
(41_reset_init.md R126, R133, 10_state.md R25). Of the geometry registers nothing is said (log 9). That `PINCFG` stays 1 is
the model's reading (log 23). Recording the failure in `FAULT` is log 8; that the controller is unchanged and what was sent stands on the
wire, the broken phase and the mark of the broken program among it, is the model's choice (log 3, 18). -/
def Obligations.InitFailsAtomically : Prop :=
  ∀ (s : State) (tr p : Ref) (x y : Coord) (k done : Nat) (ph : Phase) (code : Byte) (rest : List PhaseAnswer),
    MayInit s x y → allocateOk s → attachOk s →
    (sendsPhases (initSends x.toNat y.toNat))[k]? = some (done, ph, code) →
    s.env.transmit = List.replicate k .ok ++ .fail :: rest →
    ∃ t entry, exec (.init tr p x y) s = .next t ∧
      (initEntries x.toNat y.toNat)[done]?.map (·.1) = some entry ∧
      t = { s with
        resX := t.resX, resY := t.resY, pw := t.pw, bsz := t.bsz, freeCount := t.freeCount
        bound := false, pincfg := true, rst := .a, dc := if ph = .payload then .data else .command, cs := .deasserted
        seqPc := BitVec.ofNat 5 entry, fb := none
        result := .raised (.transportFailure ph code), fault := faultRecord s (.transportFailure ph code)
        trace := s.trace ++ initPrelude ++ (sendsEvents (initSends x.toNat y.toNat)).take (k + 1)
        wire := s.wire ++ .resetPulse :: sendsWire ((initSends x.toNat y.toNat).take done) ++
          brokenAfter (initSends x.toNat y.toNat) done ph ++ [.brokenProgram]
        env := { envAfterInit s 0 with transmit := rest } }

/-- After a successful INIT and the 25 steps in which CTRL takes what it was sent, the controller is in the state of
70_reset_and_hazards.md R263: every register at its constant, awake, normal mode, default ramp, the full window active and
its memory equal to the cleared framebuffer. The wire and the controller's steps are the model's choice (log 3); that it takes
the commands as stated is log 17, 18, 19, whatever its lock held (log 33), and that what INIT wrote before it woke the controller
stands is log 32. -/
def Obligations.InitConfiguresController : Prop :=
  ∀ (s : State) (tr p : Ref) (x y : Coord), MayInit s x y → allocateOk s → attachOk s → transportOk 43 s = true →
    s.wire = [] →
    ∃ t u, exec (.init tr p x y) s = .next t ∧ Host.Core.run core 25 t = .next u ∧
      u = { t with wire := [], ctrl := u.ctrl, freeCount := u.freeCount } ∧
      u.ctrl.regs =
        { unlock := Config.kUnlock, clock := Config.kClock, funcsel := Config.kFuncsel
          prechargeV := Config.kPrechargeV, precharge2 := Config.kPrecharge2, vcomh := Config.kVcomh
          enh1 := Config.kEnh1, enh2 := Config.kEnh2, mux := BitVec.ofNat 8 (y.toNat - 1)
          offset := 0, startline := 0, remap := Config.kRemap
          contrast := Config.kContrastDefault, brightness := Config.kBrightnessDefault &&& 0x0F
          partialMode := false, asleep := false, mode := .normal, gray := .default } ∧
      u.ctrl.window = ⟨28, BitVec.ofNat 8 (27 + (x.toNat + 1) / 2), 0, BitVec.ofNat 8 (y.toNat - 1)⟩ ∧
      ∀ r c, r < y.toNat → c < (x.toNat + 1) / 2 → gramRead (gramKey r (28 + c)) u.ctrl.gram = some 0

/-- HWRESET pulses the reset line, ending at level `A`, and changes nothing else of PPFB (41_reset_init.md R120, R121). -/
def Obligations.HwresetPulses : Prop :=
  ∀ s : State, s.life = .constructed → exec .hwreset s = .next { s with
    rst := .a
    trace := s.trace ++
      [.pin (.rst .a), .delay .hold1, .pin (.rst .r), .delay .hold2, .pin (.rst .a), .delay .settle]
    wire := s.wire ++ [.resetPulse], result := .ok }

/-- DEINIT puts the controller to sleep and always releases the binding and the buffer, reporting the sleep command's
failure only after that (41_reset_init.md R136, R137, 70_reset_and_hazards.md R265). Of the geometry registers and `SEQ_PC`
nothing is said but that `SEQ_PC` stays 0 to 25 (log 9). Recording the failure in `FAULT` is log 8 (60_exceptions.md R234); that
the controller is unchanged and the command or its broken phase stands on the wire is the model's choice (log 3, 18). -/
def Obligations.DeinitTearsDown : Prop :=
  ∀ s : State, s.life = .constructed →
    (transportOk 1 s = true → ∃ t, exec .deinit s = .next t ∧ t.seqPc.toNat ≤ 25 ∧
      t = { s with
        resX := t.resX, resY := t.resY, pw := t.pw, bsz := t.bsz, seqPc := t.seqPc, freeCount := t.freeCount
        life := .tornDown, bound := false, fb := none, dc := .command, cs := .deasserted, result := .ok
        trace := s.trace ++ [.tx false [Config.cmdCode .sleepOn]]
        wire := s.wire ++ [.command (Config.cmdCode .sleepOn) []]
        env := { s.env with transmit := s.env.transmit.tail } }) ∧
    ∀ rest, s.env.transmit = .fail :: rest → ∃ t, exec .deinit s = .next t ∧ t.seqPc.toNat ≤ 25 ∧
      t = { s with
        resX := t.resX, resY := t.resY, pw := t.pw, bsz := t.bsz, seqPc := t.seqPc, freeCount := t.freeCount
        life := .tornDown, bound := false, fb := none, dc := .command, cs := .deasserted
        result := .raised (.transportFailure .command (Config.cmdCode .sleepOn))
        fault := faultRecord s (.transportFailure .command (Config.cmdCode .sleepOn))
        trace := s.trace ++ [.tx false [Config.cmdCode .sleepOn]]
        wire := s.wire ++ [.brokenPhase (Config.cmdCode .sleepOn) []], env := { s.env with transmit := rest } }

/-! ## The controller -/

/-- The configuration commands write their register on a sleeping controller, now and for its waking, and nothing else
(10_state.md R33, 70_reset_and_hazards.md R263, R273; log 17, 32), whatever the lock register holds, which is the model's choice
(log 33). -/
def Obligations.ConfigurationCommandsWrite : Prop :=
  ∀ (s : State) (v : Byte) (p : List Byte), s.ctrl.regs.asleep = true →
    exec (.cmdClock v) s = .next (configured s fun r => { r with clock := v }) ∧
    exec (.cmdFuncsel v) s = .next (configured s fun r => { r with funcsel := v }) ∧
    exec (.cmdPrechargeV v) s = .next (configured s fun r => { r with prechargeV := v }) ∧
    exec (.cmdPrecharge2 v) s = .next (configured s fun r => { r with precharge2 := v }) ∧
    exec (.cmdVcomh v) s = .next (configured s fun r => { r with vcomh := v }) ∧
    exec (.cmdMux v) s = .next (configured s fun r => { r with mux := v }) ∧
    exec .cmdExitPartial s = .next (configured s fun r => { r with partialMode := false }) ∧
    exec (.cmdOffset v) s = .next (configured s fun r => { r with offset := v }) ∧
    exec (.cmdStartline v) s = .next (configured s fun r => { r with startline := v }) ∧
    (p.length = 2 →
      exec (.cmdEnh1 p) s = .next (configured s fun r => { r with enh1 := p }) ∧
      exec (.cmdEnh2 p) s = .next (configured s fun r => { r with enh2 := p }) ∧
      exec (.cmdRemap p) s = .next (configured s fun r => { r with remap := p }))

/-- On a waking controller a configuration command still runs; its own register then holds a value the spec does not give
(70_reset_and_hazards.md R273). The value is free, and every other register stands, by the model's own reading (log 17, unsafe
there), where 93_implementation_defined.md U2 would have a model treat every register but the window as unknown; whatever the
lock register holds (log 33). -/
def Obligations.ConfigurationCommandsAwake : Prop :=
  ∀ (s : State) (v : Byte) (p : List Byte), s.ctrl.regs.asleep = false →
    (∃ a, exec (.cmdClock v) s = .next (withRegs s { s.ctrl.regs with clock := a })) ∧
    (∃ a, exec (.cmdFuncsel v) s = .next (withRegs s { s.ctrl.regs with funcsel := a })) ∧
    (∃ a, exec (.cmdPrechargeV v) s = .next (withRegs s { s.ctrl.regs with prechargeV := a })) ∧
    (∃ a, exec (.cmdPrecharge2 v) s = .next (withRegs s { s.ctrl.regs with precharge2 := a })) ∧
    (∃ a, exec (.cmdVcomh v) s = .next (withRegs s { s.ctrl.regs with vcomh := a })) ∧
    (∃ a, exec (.cmdMux v) s = .next (withRegs s { s.ctrl.regs with mux := a })) ∧
    (∃ a, exec .cmdExitPartial s = .next (withRegs s { s.ctrl.regs with partialMode := a })) ∧
    (∃ a, exec (.cmdOffset v) s = .next (withRegs s { s.ctrl.regs with offset := a })) ∧
    (∃ a, exec (.cmdStartline v) s = .next (withRegs s { s.ctrl.regs with startline := a })) ∧
    (p.length = 2 →
      (∃ a, exec (.cmdEnh1 p) s = .next (withRegs s { s.ctrl.regs with enh1 := a })) ∧
      (∃ a, exec (.cmdEnh2 p) s = .next (withRegs s { s.ctrl.regs with enh2 := a })) ∧
      ∃ a, exec (.cmdRemap p) s = .next (withRegs s { s.ctrl.regs with remap := a }))

/-- The ramp, contrast, brightness and mode commands write their register on a waking controller, and nothing else
(10_state.md R33, R34, 45_facade.md R210 to R219; log 17), whatever the lock register holds, which is the model's choice
(log 33). That the controller accepts a table sent as one command is the model's choice too (log 37), and so is that its
brightness keeps bits 7 to 4 of the byte sent, where R33 says "low 4 bits used" (log 38). -/
def Obligations.DisplayCommandsWrite : Prop :=
  ∀ (s : State) (v : Byte) (p : List Byte), s.ctrl.regs.asleep = false →
    exec .cmdGrayDefault s = .next (withRegs s { s.ctrl.regs with gray := .default }) ∧
    exec (.cmdContrast v) s = .next (withRegs s { s.ctrl.regs with contrast := v }) ∧
    exec (.cmdBrightness v) s = .next (withRegs s { s.ctrl.regs with brightness := v }) ∧
    exec .cmdNormal s = .next (withRegs s { s.ctrl.regs with mode := .normal }) ∧
    exec .cmdInvert s = .next (withRegs s { s.ctrl.regs with mode := .inverted }) ∧
    exec .cmdAllOn s = .next (withRegs s { s.ctrl.regs with mode := .allOn }) ∧
    exec .cmdAllOff s = .next (withRegs s { s.ctrl.regs with mode := .allOff }) ∧
    (p.length = 16 → exec (.cmdGrayTable p) s = .next (withRegs s { s.ctrl.regs with gray := .table p }))

/-- On a sleeping controller these commands still run; their own register then holds a value the spec does not give. The value
is free, and every other register stands, by the model's own reading (log 17, unsafe there), where 93_implementation_defined.md
U17 gives any value and 20_memory.md R78 assumes no command accepted asleep; whatever the lock register holds (log 33). -/
def Obligations.DisplayCommandsAsleep : Prop :=
  ∀ (s : State) (v : Byte) (p : List Byte), s.ctrl.regs.asleep = true →
    (∃ a, exec .cmdGrayDefault s = .next (withRegs s { s.ctrl.regs with gray := a })) ∧
    (∃ a, exec (.cmdContrast v) s = .next (withRegs s { s.ctrl.regs with contrast := a })) ∧
    (∃ a, exec (.cmdBrightness v) s = .next (withRegs s { s.ctrl.regs with brightness := a })) ∧
    (∃ a, exec .cmdNormal s = .next (withRegs s { s.ctrl.regs with mode := a })) ∧
    (∃ a, exec .cmdInvert s = .next (withRegs s { s.ctrl.regs with mode := a })) ∧
    (∃ a, exec .cmdAllOn s = .next (withRegs s { s.ctrl.regs with mode := a })) ∧
    (∃ a, exec .cmdAllOff s = .next (withRegs s { s.ctrl.regs with mode := a })) ∧
    (p.length = 16 → ∃ a, exec (.cmdGrayTable p) s = .next (withRegs s { s.ctrl.regs with gray := a }))

/-- The lock and the sleep state follow their commands whatever the sleep state (41_reset_init.md R130 entries 0, 1, 16,
60_exceptions.md R257): that a sleeping controller takes UNLOCK is the model's reading (log 17), where 20_memory.md R78 assumes
no command accepted asleep, and so is that the lock holds up neither sleep command (log 33). Going to sleep leaves nothing known
of what the registers hold on waking, and waking nothing known of the memory (R257, 93_implementation_defined.md U17); what was
configured in the sleep, the lock and the window stand over the waking (log 32). -/
def Obligations.LockAndSleepCommands : Prop :=
  ∀ (s : State) (v : Byte),
    exec (.cmdUnlock v) s = .next (withRegs s { s.ctrl.regs with unlock := v }) ∧
    (s.ctrl.regs.asleep = true → exec .cmdSleepOn s = .next (withRegs s { s.ctrl.regs with asleep := true })) ∧
    (s.ctrl.regs.asleep = false → ∃ w, exec .cmdSleepOn s = .next { s with
      ctrl := { s.ctrl with regs := { s.ctrl.regs with asleep := true }, onWaking := w, pointer := .anywhere }
      freeCount := s.freeCount + 1 }) ∧
    (s.ctrl.regs.asleep = false → exec .cmdSleepOff s = .next (withRegs s s.ctrl.regs)) ∧
    (s.ctrl.regs.asleep = true → ∃ gram, exec .cmdSleepOff s = .next { s with
      ctrl := { s.ctrl with
        regs := { s.ctrl.onWaking with asleep := false, unlock := s.ctrl.regs.unlock }
        pointer := .anywhere, gram := gram }
      freeCount := s.freeCount + 1 })

/-- The active window is the bytes last received, and stays until the next window command: every other command of the right
length leaves it as it is (20_memory.md R76); the memory is not touched by a window command. The second clause ranges over the
requests too, COLWIN, ROWWIN, FLUSH, INIT and HWRESET among them: that a request itself leaves CTRL's window as it is, where
42_window.md R160 counts that window as written by COLWIN, is the model's wire (log 3), from which CTRL takes the window in a
later step. That a sleeping controller takes the window is log 17, and that its lock is not asked is log 33. -/
def Obligations.WindowIsTheLastReceived : Prop :=
  (∀ (s : State) (a b : Byte),
    (∃ t, exec (.cmdSetCol a b) s = .next t ∧ t = { s with ctrl := t.ctrl } ∧ t.ctrl.regs = s.ctrl.regs ∧
      t.ctrl.gram = s.ctrl.gram ∧ t.ctrl.window = ⟨a, b, s.ctrl.window.rowStart, s.ctrl.window.rowStop⟩) ∧
    ∃ t, exec (.cmdSetRow a b) s = .next t ∧ t = { s with ctrl := t.ctrl } ∧ t.ctrl.regs = s.ctrl.regs ∧
      t.ctrl.gram = s.ctrl.gram ∧ t.ctrl.window = ⟨s.ctrl.window.colStart, s.ctrl.window.colStop, a, b⟩) ∧
  ∀ (i : Instr) (s t : State), exec i s = .next t → i.wellFormed = true → (∀ a b, i ≠ .cmdSetCol a b) →
    (∀ a b, i ≠ .cmdSetRow a b) → t.ctrl.window = s.ctrl.window

/-- Right after a column window and then a row window, both within the geometry range of 00_scope.md R7, a memory write whose
payload exactly fills the window stores it row-major, low address to high, and leaves every address outside the window as it was
(20_memory.md R72, R77; awake, and from the window's first position: log 17, 19; whatever the lock register holds: log 33). -/
def Obligations.MemoryWriteFillsTheWindow : Prop :=
  ∀ (s : State) (a b c d : Byte) (p : List Byte), s.ctrl.regs.asleep = false → 28 ≤ a.toNat → a ≤ b → b.toNat ≤ 155 →
    c ≤ d → d.toNat ≤ 127 →
    p.length = (b.toNat + 1 - a.toNat) * (d.toNat + 1 - c.toNat) →
    ∃ s₁ s₂ t, exec (.cmdSetCol a b) s = .next s₁ ∧ exec (.cmdSetRow c d) s₁ = .next s₂ ∧
      exec (.cmdWriteRam p) s₂ = .next t ∧ t = { s with ctrl := t.ctrl } ∧ t.ctrl.regs = s.ctrl.regs ∧
      (∀ j, j < p.length →
        gramRead (gramKey (c.toNat + j / (b.toNat + 1 - a.toNat)) (a.toNat + j % (b.toNat + 1 - a.toNat))) t.ctrl.gram
          = p[j]?) ∧
      ∀ r k, r < 256 → k < 256 → (r < c.toNat ∨ d.toNat < r ∨ k < a.toNat ∨ b.toNat < k) →
        gramRead (gramKey r k) t.ctrl.gram = gramRead (gramKey r k) s.ctrl.gram

/-- Every memory write completes, and changes the controller's memory and write pointer only: that the registers and the window
stand at a payload the window does not hold exactly is the model's choice (log 36). Where the window is one of which
20_memory.md R77 speaks and can hold the payload, the bytes go into the window: every address outside it is as it was
(93_implementation_defined.md U7; log 19). -/
def Obligations.MemoryWriteStaysInTheWindow : Prop :=
  ∀ (s : State) (p : List Byte), p ≠ [] →
    ∃ gram, exec (.cmdWriteRam p) s = .next { s with ctrl := { s.ctrl with pointer := .anywhere, gram := gram } } ∧
      (s.ctrl.KnownWindow → p.length ≤ s.ctrl.window.wide * s.ctrl.window.high →
        ∀ a, s.ctrl.window.covers a = false → gramRead a gram = gramRead a s.ctrl.gram)

/-- A command with an unknown code or a payload of the wrong length, a failed phase, a FLUSH or init program cut short, a reset
pulse and a mark change CTRL only. What then stands of CTRL: the halves of the window that the command does not set, and all of
it after a program cut short (20_memory.md R76, 93_implementation_defined.md U2); the registers after a failed phase of a window
command or a memory write, and after a FLUSH cut short (43_framebuffer.md R180, 10_state.md R46); all but its flag at a mark.
The form of these events is the model's choice (log 3, 35), what stands is log 18. -/
def Obligations.LineEventsTouchControllerOnly : Prop :=
  ∀ (s : State) (b : BusEvent) (rest : List BusEvent), s.wire = b :: rest →
    (∀ code p i, b = .command code p → decode (.command code p) ≠ .ok i) →
    ∃ t, step s = .next t ∧ t = { s with wire := rest, ctrl := t.ctrl, freeCount := t.freeCount } ∧
      (∀ code p, (b = .command code p ∨ b = .brokenPhase code p) →
        (code ≠ Config.cmdCode .setCol →
          t.ctrl.window.colStart = s.ctrl.window.colStart ∧ t.ctrl.window.colStop = s.ctrl.window.colStop) ∧
        (code ≠ Config.cmdCode .setRow →
          t.ctrl.window.rowStart = s.ctrl.window.rowStart ∧ t.ctrl.window.rowStop = s.ctrl.window.rowStop)) ∧
      (b = .brokenProgram → t.ctrl.window = s.ctrl.window) ∧
      (∀ code p, b = .brokenPhase code p →
        (code = Config.cmdCode .setCol ∨ code = Config.cmdCode .setRow ∨ code = Config.cmdCode .writeRam) →
        (p = [] ∨ ∃ i, decode (.command code p) = .ok i) → t.ctrl.regs = s.ctrl.regs) ∧
      (b = .brokenFlush → t.ctrl.regs = s.ctrl.regs) ∧
      (b = .wrappedColumns → t.ctrl = { s.ctrl with columnsBarred := true }) ∧
      (b = .wrappedRows → t.ctrl = { s.ctrl with rowsBarred := true })

/-- After a FLUSH that failed at any phase, a later successful FLUSH repairs the controller: its window is the full one again
and its memory in it is the framebuffer byte for byte (43_framebuffer.md R180). Between the two the controller takes what the
first one sent; the wire and its steps are the model's choice (log 3), and so is that the controller's registers stand over the
failure, its sleep state among them (log 18), that its parser takes the second FLUSH afresh (log 34) and that its lock is not
asked (log 33). -/
def Obligations.FlushRepairsTheController : Prop :=
  ∀ (s : State) (k done : Nat) (ph : Phase) (code : Byte) (rest : List PhaseAnswer), Ready s → s.wire = [] →
    s.ctrl.regs.asleep = false → (sendsPhases (flushSends s))[k]? = some (done, ph, code) →
    s.env.transmit = List.replicate k .ok ++ .fail :: rest → (∀ a ∈ rest.take 6, a = .ok) →
    ∃ t u v w, exec .flush s = .next t ∧ t.result = .raised (.transportFailure ph code) ∧
      Host.Core.run core (done + 2) t = .next u ∧ u.wire = [] ∧
      exec .flush u = .next v ∧ v.result = .ok ∧ Host.Core.run core 3 v = .next w ∧ w.wire = [] ∧
      w.ctrl.regs = s.ctrl.regs ∧
      w.ctrl.window = ⟨28, BitVec.ofNat 8 (27 + s.pw.toNat), 0, BitVec.ofNat 8 (s.resY.toNat - 1)⟩ ∧
      ∀ r c, r < s.resY.toNat → c < s.pw.toNat →
        gramRead (gramKey r (28 + c)) w.ctrl.gram = readFb s (r * s.pw.toNat + c)
end

