-- ==== Sys2Proof/Laws/State.lean ====
section
/-! SUPPORT. One lemma per field per update of the state, each true by `rfl`, so that no later proof unfolds a record
update. -/

namespace Sys2Proof.Machine

@[simp] theorem takeError_life (e : Err) (s : State) : (takeError e s).life = s.life := rfl
@[simp] theorem takeError_resX (e : Err) (s : State) : (takeError e s).resX = s.resX := rfl
@[simp] theorem takeError_resY (e : Err) (s : State) : (takeError e s).resY = s.resY := rfl
@[simp] theorem takeError_pw (e : Err) (s : State) : (takeError e s).pw = s.pw := rfl
@[simp] theorem takeError_bsz (e : Err) (s : State) : (takeError e s).bsz = s.bsz := rfl
@[simp] theorem takeError_bound (e : Err) (s : State) : (takeError e s).bound = s.bound := rfl
@[simp] theorem takeError_pincfg (e : Err) (s : State) : (takeError e s).pincfg = s.pincfg := rfl
@[simp] theorem takeError_rst (e : Err) (s : State) : (takeError e s).rst = s.rst := rfl
@[simp] theorem takeError_dc (e : Err) (s : State) : (takeError e s).dc = s.dc := rfl
@[simp] theorem takeError_cs (e : Err) (s : State) : (takeError e s).cs = s.cs := rfl
@[simp] theorem takeError_seqPc (e : Err) (s : State) : (takeError e s).seqPc = s.seqPc := rfl
@[simp] theorem takeError_fault (e : Err) (s : State) : (takeError e s).fault = faultAfter s.fault e := rfl
@[simp] theorem takeError_result (e : Err) (s : State) : (takeError e s).result = .raised e := rfl
@[simp] theorem takeError_fb (e : Err) (s : State) : (takeError e s).fb = s.fb := rfl
@[simp] theorem takeError_trace (e : Err) (s : State) : (takeError e s).trace = s.trace := rfl
@[simp] theorem takeError_port (e : Err) (s : State) : (takeError e s).port = s.port := rfl
@[simp] theorem takeError_wire (e : Err) (s : State) : (takeError e s).wire = s.wire := rfl
@[simp] theorem takeError_ctrl (e : Err) (s : State) : (takeError e s).ctrl = s.ctrl := rfl
@[simp] theorem takeError_env (e : Err) (s : State) : (takeError e s).env = s.env := rfl
@[simp] theorem takeError_freeCount (e : Err) (s : State) : (takeError e s).freeCount = s.freeCount := rfl

@[simp] theorem emit_life (e : Event) (s : State) : (emit e s).life = s.life := rfl
@[simp] theorem emit_resX (e : Event) (s : State) : (emit e s).resX = s.resX := rfl
@[simp] theorem emit_resY (e : Event) (s : State) : (emit e s).resY = s.resY := rfl
@[simp] theorem emit_pw (e : Event) (s : State) : (emit e s).pw = s.pw := rfl
@[simp] theorem emit_bsz (e : Event) (s : State) : (emit e s).bsz = s.bsz := rfl
@[simp] theorem emit_bound (e : Event) (s : State) : (emit e s).bound = s.bound := rfl
@[simp] theorem emit_pincfg (e : Event) (s : State) : (emit e s).pincfg = s.pincfg := rfl
@[simp] theorem emit_rst (e : Event) (s : State) : (emit e s).rst = s.rst := rfl
@[simp] theorem emit_dc (e : Event) (s : State) : (emit e s).dc = s.dc := rfl
@[simp] theorem emit_cs (e : Event) (s : State) : (emit e s).cs = s.cs := rfl
@[simp] theorem emit_seqPc (e : Event) (s : State) : (emit e s).seqPc = s.seqPc := rfl
@[simp] theorem emit_fault (e : Event) (s : State) : (emit e s).fault = s.fault := rfl
@[simp] theorem emit_result (e : Event) (s : State) : (emit e s).result = s.result := rfl
@[simp] theorem emit_fb (e : Event) (s : State) : (emit e s).fb = s.fb := rfl
@[simp] theorem emit_trace (e : Event) (s : State) : (emit e s).trace = s.trace ++ [e] := rfl
@[simp] theorem emit_port (e : Event) (s : State) : (emit e s).port = s.port := rfl
@[simp] theorem emit_wire (e : Event) (s : State) : (emit e s).wire = s.wire := rfl
@[simp] theorem emit_ctrl (e : Event) (s : State) : (emit e s).ctrl = s.ctrl := rfl
@[simp] theorem emit_env (e : Event) (s : State) : (emit e s).env = s.env := rfl
@[simp] theorem emit_freeCount (e : Event) (s : State) : (emit e s).freeCount = s.freeCount := rfl

@[simp] theorem toCtrl_life (b : BusEvent) (s : State) : (toCtrl b s).life = s.life := rfl
@[simp] theorem toCtrl_resX (b : BusEvent) (s : State) : (toCtrl b s).resX = s.resX := rfl
@[simp] theorem toCtrl_resY (b : BusEvent) (s : State) : (toCtrl b s).resY = s.resY := rfl
@[simp] theorem toCtrl_pw (b : BusEvent) (s : State) : (toCtrl b s).pw = s.pw := rfl
@[simp] theorem toCtrl_bsz (b : BusEvent) (s : State) : (toCtrl b s).bsz = s.bsz := rfl
@[simp] theorem toCtrl_bound (b : BusEvent) (s : State) : (toCtrl b s).bound = s.bound := rfl
@[simp] theorem toCtrl_pincfg (b : BusEvent) (s : State) : (toCtrl b s).pincfg = s.pincfg := rfl
@[simp] theorem toCtrl_rst (b : BusEvent) (s : State) : (toCtrl b s).rst = s.rst := rfl
@[simp] theorem toCtrl_dc (b : BusEvent) (s : State) : (toCtrl b s).dc = s.dc := rfl
@[simp] theorem toCtrl_cs (b : BusEvent) (s : State) : (toCtrl b s).cs = s.cs := rfl
@[simp] theorem toCtrl_seqPc (b : BusEvent) (s : State) : (toCtrl b s).seqPc = s.seqPc := rfl
@[simp] theorem toCtrl_fault (b : BusEvent) (s : State) : (toCtrl b s).fault = s.fault := rfl
@[simp] theorem toCtrl_result (b : BusEvent) (s : State) : (toCtrl b s).result = s.result := rfl
@[simp] theorem toCtrl_fb (b : BusEvent) (s : State) : (toCtrl b s).fb = s.fb := rfl
@[simp] theorem toCtrl_trace (b : BusEvent) (s : State) : (toCtrl b s).trace = s.trace := rfl
@[simp] theorem toCtrl_port (b : BusEvent) (s : State) : (toCtrl b s).port = s.port := rfl
@[simp] theorem toCtrl_wire (b : BusEvent) (s : State) : (toCtrl b s).wire = s.wire ++ [b] := rfl
@[simp] theorem toCtrl_ctrl (b : BusEvent) (s : State) : (toCtrl b s).ctrl = s.ctrl := rfl
@[simp] theorem toCtrl_env (b : BusEvent) (s : State) : (toCtrl b s).env = s.env := rfl
@[simp] theorem toCtrl_freeCount (b : BusEvent) (s : State) : (toCtrl b s).freeCount = s.freeCount := rfl

@[simp] theorem phaseSent_life (d : Bool) (bs : List Byte) (s : State) : (phaseSent d bs s).life = s.life := rfl
@[simp] theorem phaseSent_resX (d : Bool) (bs : List Byte) (s : State) : (phaseSent d bs s).resX = s.resX := rfl
@[simp] theorem phaseSent_resY (d : Bool) (bs : List Byte) (s : State) : (phaseSent d bs s).resY = s.resY := rfl
@[simp] theorem phaseSent_pw (d : Bool) (bs : List Byte) (s : State) : (phaseSent d bs s).pw = s.pw := rfl
@[simp] theorem phaseSent_bsz (d : Bool) (bs : List Byte) (s : State) : (phaseSent d bs s).bsz = s.bsz := rfl
@[simp] theorem phaseSent_bound (d : Bool) (bs : List Byte) (s : State) : (phaseSent d bs s).bound = s.bound := rfl
@[simp] theorem phaseSent_pincfg (d : Bool) (bs : List Byte) (s : State) : (phaseSent d bs s).pincfg = s.pincfg := rfl
@[simp] theorem phaseSent_rst (d : Bool) (bs : List Byte) (s : State) : (phaseSent d bs s).rst = s.rst := rfl
@[simp] theorem phaseSent_dc (d : Bool) (bs : List Byte) (s : State) : (phaseSent d bs s).dc = dcOf d := rfl
@[simp] theorem phaseSent_cs (d : Bool) (bs : List Byte) (s : State) : (phaseSent d bs s).cs = .deasserted := rfl
@[simp] theorem phaseSent_seqPc (d : Bool) (bs : List Byte) (s : State) : (phaseSent d bs s).seqPc = s.seqPc := rfl
@[simp] theorem phaseSent_fault (d : Bool) (bs : List Byte) (s : State) : (phaseSent d bs s).fault = s.fault := rfl
@[simp] theorem phaseSent_result (d : Bool) (bs : List Byte) (s : State) : (phaseSent d bs s).result = s.result := rfl
@[simp] theorem phaseSent_fb (d : Bool) (bs : List Byte) (s : State) : (phaseSent d bs s).fb = s.fb := rfl
@[simp] theorem phaseSent_trace (d : Bool) (bs : List Byte) (s : State) : (phaseSent d bs s).trace = s.trace ++ [.tx d bs] := rfl
@[simp] theorem phaseSent_port (d : Bool) (bs : List Byte) (s : State) : (phaseSent d bs s).port = s.port := rfl
@[simp] theorem phaseSent_wire (d : Bool) (bs : List Byte) (s : State) : (phaseSent d bs s).wire = s.wire := rfl
@[simp] theorem phaseSent_ctrl (d : Bool) (bs : List Byte) (s : State) : (phaseSent d bs s).ctrl = s.ctrl := rfl
@[simp] theorem phaseSent_env (d : Bool) (bs : List Byte) (s : State) : (phaseSent d bs s).env = { s.env with transmit := s.env.transmit.tail } := rfl
@[simp] theorem phaseSent_freeCount (d : Bool) (bs : List Byte) (s : State) : (phaseSent d bs s).freeCount = s.freeCount := rfl

@[simp] theorem writeFb_life (s : State) (i : Nat) (v : Byte) : (writeFb s i v).life = s.life := rfl
@[simp] theorem writeFb_resX (s : State) (i : Nat) (v : Byte) : (writeFb s i v).resX = s.resX := rfl
@[simp] theorem writeFb_resY (s : State) (i : Nat) (v : Byte) : (writeFb s i v).resY = s.resY := rfl
@[simp] theorem writeFb_pw (s : State) (i : Nat) (v : Byte) : (writeFb s i v).pw = s.pw := rfl
@[simp] theorem writeFb_bsz (s : State) (i : Nat) (v : Byte) : (writeFb s i v).bsz = s.bsz := rfl
@[simp] theorem writeFb_bound (s : State) (i : Nat) (v : Byte) : (writeFb s i v).bound = s.bound := rfl
@[simp] theorem writeFb_pincfg (s : State) (i : Nat) (v : Byte) : (writeFb s i v).pincfg = s.pincfg := rfl
@[simp] theorem writeFb_rst (s : State) (i : Nat) (v : Byte) : (writeFb s i v).rst = s.rst := rfl
@[simp] theorem writeFb_dc (s : State) (i : Nat) (v : Byte) : (writeFb s i v).dc = s.dc := rfl
@[simp] theorem writeFb_cs (s : State) (i : Nat) (v : Byte) : (writeFb s i v).cs = s.cs := rfl
@[simp] theorem writeFb_seqPc (s : State) (i : Nat) (v : Byte) : (writeFb s i v).seqPc = s.seqPc := rfl
@[simp] theorem writeFb_fault (s : State) (i : Nat) (v : Byte) : (writeFb s i v).fault = s.fault := rfl
@[simp] theorem writeFb_result (s : State) (i : Nat) (v : Byte) : (writeFb s i v).result = s.result := rfl
@[simp] theorem writeFb_fb (s : State) (i : Nat) (v : Byte) : (writeFb s i v).fb = s.fb.map fun m => m.write i v := rfl
@[simp] theorem writeFb_trace (s : State) (i : Nat) (v : Byte) : (writeFb s i v).trace = s.trace := rfl
@[simp] theorem writeFb_port (s : State) (i : Nat) (v : Byte) : (writeFb s i v).port = s.port := rfl
@[simp] theorem writeFb_wire (s : State) (i : Nat) (v : Byte) : (writeFb s i v).wire = s.wire := rfl
@[simp] theorem writeFb_ctrl (s : State) (i : Nat) (v : Byte) : (writeFb s i v).ctrl = s.ctrl := rfl
@[simp] theorem writeFb_env (s : State) (i : Nat) (v : Byte) : (writeFb s i v).env = s.env := rfl
@[simp] theorem writeFb_freeCount (s : State) (i : Nat) (v : Byte) : (writeFb s i v).freeCount = s.freeCount := rfl

@[simp] theorem resetPulse_life (s : State) : (resetPulse s).life = s.life := rfl
@[simp] theorem resetPulse_resX (s : State) : (resetPulse s).resX = s.resX := rfl
@[simp] theorem resetPulse_resY (s : State) : (resetPulse s).resY = s.resY := rfl
@[simp] theorem resetPulse_pw (s : State) : (resetPulse s).pw = s.pw := rfl
@[simp] theorem resetPulse_bsz (s : State) : (resetPulse s).bsz = s.bsz := rfl
@[simp] theorem resetPulse_bound (s : State) : (resetPulse s).bound = s.bound := rfl
@[simp] theorem resetPulse_pincfg (s : State) : (resetPulse s).pincfg = s.pincfg := rfl
@[simp] theorem resetPulse_rst (s : State) : (resetPulse s).rst = .a := rfl
@[simp] theorem resetPulse_dc (s : State) : (resetPulse s).dc = s.dc := rfl
@[simp] theorem resetPulse_cs (s : State) : (resetPulse s).cs = s.cs := rfl
@[simp] theorem resetPulse_seqPc (s : State) : (resetPulse s).seqPc = s.seqPc := rfl
@[simp] theorem resetPulse_fault (s : State) : (resetPulse s).fault = s.fault := rfl
@[simp] theorem resetPulse_result (s : State) : (resetPulse s).result = s.result := rfl
@[simp] theorem resetPulse_fb (s : State) : (resetPulse s).fb = s.fb := rfl
@[simp] theorem resetPulse_port (s : State) : (resetPulse s).port = s.port := rfl
@[simp] theorem resetPulse_wire (s : State) : (resetPulse s).wire = s.wire ++ [.resetPulse] := rfl
@[simp] theorem resetPulse_ctrl (s : State) : (resetPulse s).ctrl = s.ctrl := rfl
@[simp] theorem resetPulse_env (s : State) : (resetPulse s).env = s.env := rfl
@[simp] theorem resetPulse_freeCount (s : State) : (resetPulse s).freeCount = s.freeCount := rfl

@[simp] theorem configurePins_life (s : State) : (configurePins s).life = s.life := rfl
@[simp] theorem configurePins_resX (s : State) : (configurePins s).resX = s.resX := rfl
@[simp] theorem configurePins_resY (s : State) : (configurePins s).resY = s.resY := rfl
@[simp] theorem configurePins_pw (s : State) : (configurePins s).pw = s.pw := rfl
@[simp] theorem configurePins_bsz (s : State) : (configurePins s).bsz = s.bsz := rfl
@[simp] theorem configurePins_bound (s : State) : (configurePins s).bound = s.bound := rfl
@[simp] theorem configurePins_pincfg (s : State) : (configurePins s).pincfg = true := rfl
@[simp] theorem configurePins_rst (s : State) : (configurePins s).rst = s.rst := rfl
@[simp] theorem configurePins_dc (s : State) : (configurePins s).dc = s.dc := rfl
@[simp] theorem configurePins_cs (s : State) : (configurePins s).cs = s.cs := rfl
@[simp] theorem configurePins_seqPc (s : State) : (configurePins s).seqPc = s.seqPc := rfl
@[simp] theorem configurePins_fault (s : State) : (configurePins s).fault = s.fault := rfl
@[simp] theorem configurePins_result (s : State) : (configurePins s).result = s.result := rfl
@[simp] theorem configurePins_fb (s : State) : (configurePins s).fb = s.fb := rfl
@[simp] theorem configurePins_trace (s : State) : (configurePins s).trace = s.trace ++ [.dircfg] := rfl
@[simp] theorem configurePins_port (s : State) : (configurePins s).port = s.port := rfl
@[simp] theorem configurePins_wire (s : State) : (configurePins s).wire = s.wire := rfl
@[simp] theorem configurePins_ctrl (s : State) : (configurePins s).ctrl = s.ctrl := rfl
@[simp] theorem configurePins_env (s : State) : (configurePins s).env = s.env := rfl
@[simp] theorem configurePins_freeCount (s : State) : (configurePins s).freeCount = s.freeCount := rfl

@[simp] theorem latch_life (x y : Coord) (s : State) : (latch x y s).life = s.life := rfl
@[simp] theorem latch_resX (x y : Coord) (s : State) : (latch x y s).resX = x := rfl
@[simp] theorem latch_resY (x y : Coord) (s : State) : (latch x y s).resY = y := rfl
@[simp] theorem latch_pw (x y : Coord) (s : State) : (latch x y s).pw = BitVec.ofNat 16 (packedWidth x) := rfl
@[simp] theorem latch_bsz (x y : Coord) (s : State) : (latch x y s).bsz = BitVec.ofNat 32 (bufferSize x y) := rfl
@[simp] theorem latch_bound (x y : Coord) (s : State) : (latch x y s).bound = true := rfl
@[simp] theorem latch_pincfg (x y : Coord) (s : State) : (latch x y s).pincfg = s.pincfg := rfl
@[simp] theorem latch_rst (x y : Coord) (s : State) : (latch x y s).rst = s.rst := rfl
@[simp] theorem latch_dc (x y : Coord) (s : State) : (latch x y s).dc = s.dc := rfl
@[simp] theorem latch_cs (x y : Coord) (s : State) : (latch x y s).cs = s.cs := rfl
@[simp] theorem latch_seqPc (x y : Coord) (s : State) : (latch x y s).seqPc = s.seqPc := rfl
@[simp] theorem latch_fault (x y : Coord) (s : State) : (latch x y s).fault = s.fault := rfl
@[simp] theorem latch_result (x y : Coord) (s : State) : (latch x y s).result = s.result := rfl
@[simp] theorem latch_fb (x y : Coord) (s : State) : (latch x y s).fb = some (Memory.fresh (bufferSize x y)) := rfl
@[simp] theorem latch_trace (x y : Coord) (s : State) : (latch x y s).trace = s.trace := rfl
@[simp] theorem latch_port (x y : Coord) (s : State) : (latch x y s).port = s.port := rfl
@[simp] theorem latch_wire (x y : Coord) (s : State) : (latch x y s).wire = s.wire := rfl
@[simp] theorem latch_ctrl (x y : Coord) (s : State) : (latch x y s).ctrl = s.ctrl := rfl
@[simp] theorem latch_env (x y : Coord) (s : State) : (latch x y s).env = s.env := rfl
@[simp] theorem latch_freeCount (x y : Coord) (s : State) : (latch x y s).freeCount = s.freeCount := rfl

@[simp] theorem release_life (s : State) : (release s).life = s.life := rfl
@[simp] theorem release_resX (s : State) : (release s).resX = Config.freeCoord s.freeCount 0 := rfl
@[simp] theorem release_resY (s : State) : (release s).resY = Config.freeCoord s.freeCount 1 := rfl
@[simp] theorem release_pw (s : State) : (release s).pw = Config.freeCoord s.freeCount 2 := rfl
@[simp] theorem release_bsz (s : State) : (release s).bsz = Config.freeBsz s.freeCount := rfl
@[simp] theorem release_bound (s : State) : (release s).bound = false := rfl
@[simp] theorem release_pincfg (s : State) : (release s).pincfg = s.pincfg := rfl
@[simp] theorem release_rst (s : State) : (release s).rst = s.rst := rfl
@[simp] theorem release_dc (s : State) : (release s).dc = s.dc := rfl
@[simp] theorem release_cs (s : State) : (release s).cs = s.cs := rfl
@[simp] theorem release_seqPc (s : State) : (release s).seqPc = s.seqPc := rfl
@[simp] theorem release_fault (s : State) : (release s).fault = s.fault := rfl
@[simp] theorem release_result (s : State) : (release s).result = s.result := rfl
@[simp] theorem release_fb (s : State) : (release s).fb = none := rfl
@[simp] theorem release_trace (s : State) : (release s).trace = s.trace := rfl
@[simp] theorem release_port (s : State) : (release s).port = s.port := rfl
@[simp] theorem release_wire (s : State) : (release s).wire = s.wire := rfl
@[simp] theorem release_ctrl (s : State) : (release s).ctrl = s.ctrl := rfl
@[simp] theorem release_env (s : State) : (release s).env = s.env := rfl
@[simp] theorem release_freeCount (s : State) : (release s).freeCount = s.freeCount + 1 := rfl

@[simp] theorem abandon_life (s : State) : (abandon s).life = s.life := rfl
@[simp] theorem abandon_resX (s : State) : (abandon s).resX = Config.freeCoord s.freeCount 0 := rfl
@[simp] theorem abandon_resY (s : State) : (abandon s).resY = Config.freeCoord s.freeCount 1 := rfl
@[simp] theorem abandon_pw (s : State) : (abandon s).pw = Config.freeCoord s.freeCount 2 := rfl
@[simp] theorem abandon_bsz (s : State) : (abandon s).bsz = Config.freeBsz s.freeCount := rfl
@[simp] theorem abandon_bound (s : State) : (abandon s).bound = false := rfl
@[simp] theorem abandon_pincfg (s : State) : (abandon s).pincfg = s.pincfg := rfl
@[simp] theorem abandon_rst (s : State) : (abandon s).rst = s.rst := rfl
@[simp] theorem abandon_dc (s : State) : (abandon s).dc = s.dc := rfl
@[simp] theorem abandon_cs (s : State) : (abandon s).cs = s.cs := rfl
@[simp] theorem abandon_seqPc (s : State) : (abandon s).seqPc = s.seqPc := rfl
@[simp] theorem abandon_fault (s : State) : (abandon s).fault = s.fault := rfl
@[simp] theorem abandon_result (s : State) : (abandon s).result = s.result := rfl
@[simp] theorem abandon_fb (s : State) : (abandon s).fb = none := rfl
@[simp] theorem abandon_trace (s : State) : (abandon s).trace = s.trace := rfl
@[simp] theorem abandon_port (s : State) : (abandon s).port = s.port := rfl
@[simp] theorem abandon_wire (s : State) : (abandon s).wire = s.wire ++ [.brokenProgram] := rfl
@[simp] theorem abandon_ctrl (s : State) : (abandon s).ctrl = s.ctrl := rfl
@[simp] theorem abandon_env (s : State) : (abandon s).env = s.env := rfl
@[simp] theorem abandon_freeCount (s : State) : (abandon s).freeCount = s.freeCount + 1 := rfl

@[simp] theorem tearDown_life (s : State) : (tearDown s).life = .tornDown := rfl
@[simp] theorem tearDown_resX (s : State) : (tearDown s).resX = Config.freeCoord s.freeCount 0 := rfl
@[simp] theorem tearDown_resY (s : State) : (tearDown s).resY = Config.freeCoord s.freeCount 1 := rfl
@[simp] theorem tearDown_pw (s : State) : (tearDown s).pw = Config.freeCoord s.freeCount 2 := rfl
@[simp] theorem tearDown_bsz (s : State) : (tearDown s).bsz = Config.freeBsz s.freeCount := rfl
@[simp] theorem tearDown_bound (s : State) : (tearDown s).bound = false := rfl
@[simp] theorem tearDown_pincfg (s : State) : (tearDown s).pincfg = s.pincfg := rfl
@[simp] theorem tearDown_rst (s : State) : (tearDown s).rst = s.rst := rfl
@[simp] theorem tearDown_dc (s : State) : (tearDown s).dc = s.dc := rfl
@[simp] theorem tearDown_cs (s : State) : (tearDown s).cs = s.cs := rfl
@[simp] theorem tearDown_seqPc (s : State) : (tearDown s).seqPc = BitVec.ofNat 5 (Config.freeSeqPc s.freeCount).val := rfl
@[simp] theorem tearDown_fault (s : State) : (tearDown s).fault = s.fault := rfl
@[simp] theorem tearDown_result (s : State) : (tearDown s).result = s.result := rfl
@[simp] theorem tearDown_fb (s : State) : (tearDown s).fb = none := rfl
@[simp] theorem tearDown_trace (s : State) : (tearDown s).trace = s.trace := rfl
@[simp] theorem tearDown_port (s : State) : (tearDown s).port = s.port := rfl
@[simp] theorem tearDown_wire (s : State) : (tearDown s).wire = s.wire := rfl
@[simp] theorem tearDown_ctrl (s : State) : (tearDown s).ctrl = s.ctrl := rfl
@[simp] theorem tearDown_env (s : State) : (tearDown s).env = s.env := rfl
@[simp] theorem tearDown_freeCount (s : State) : (tearDown s).freeCount = s.freeCount + 1 := rfl

@[simp] theorem advance_life (s : State) : (advance s).life = s.life := rfl
@[simp] theorem advance_resX (s : State) : (advance s).resX = s.resX := rfl
@[simp] theorem advance_resY (s : State) : (advance s).resY = s.resY := rfl
@[simp] theorem advance_pw (s : State) : (advance s).pw = s.pw := rfl
@[simp] theorem advance_bsz (s : State) : (advance s).bsz = s.bsz := rfl
@[simp] theorem advance_bound (s : State) : (advance s).bound = s.bound := rfl
@[simp] theorem advance_pincfg (s : State) : (advance s).pincfg = s.pincfg := rfl
@[simp] theorem advance_rst (s : State) : (advance s).rst = s.rst := rfl
@[simp] theorem advance_dc (s : State) : (advance s).dc = s.dc := rfl
@[simp] theorem advance_cs (s : State) : (advance s).cs = s.cs := rfl
@[simp] theorem advance_seqPc (s : State) : (advance s).seqPc = s.seqPc + 1 := rfl
@[simp] theorem advance_fault (s : State) : (advance s).fault = s.fault := rfl
@[simp] theorem advance_result (s : State) : (advance s).result = s.result := rfl
@[simp] theorem advance_fb (s : State) : (advance s).fb = s.fb := rfl
@[simp] theorem advance_trace (s : State) : (advance s).trace = s.trace := rfl
@[simp] theorem advance_port (s : State) : (advance s).port = s.port := rfl
@[simp] theorem advance_wire (s : State) : (advance s).wire = s.wire := rfl
@[simp] theorem advance_ctrl (s : State) : (advance s).ctrl = s.ctrl := rfl
@[simp] theorem advance_env (s : State) : (advance s).env = s.env := rfl
@[simp] theorem advance_freeCount (s : State) : (advance s).freeCount = s.freeCount := rfl

@[simp] theorem ctrlRegs_life (r : CtrlRegs) (s : State) : (ctrlRegs r s).life = s.life := rfl
@[simp] theorem ctrlRegs_resX (r : CtrlRegs) (s : State) : (ctrlRegs r s).resX = s.resX := rfl
@[simp] theorem ctrlRegs_resY (r : CtrlRegs) (s : State) : (ctrlRegs r s).resY = s.resY := rfl
@[simp] theorem ctrlRegs_pw (r : CtrlRegs) (s : State) : (ctrlRegs r s).pw = s.pw := rfl
@[simp] theorem ctrlRegs_bsz (r : CtrlRegs) (s : State) : (ctrlRegs r s).bsz = s.bsz := rfl
@[simp] theorem ctrlRegs_bound (r : CtrlRegs) (s : State) : (ctrlRegs r s).bound = s.bound := rfl
@[simp] theorem ctrlRegs_pincfg (r : CtrlRegs) (s : State) : (ctrlRegs r s).pincfg = s.pincfg := rfl
@[simp] theorem ctrlRegs_rst (r : CtrlRegs) (s : State) : (ctrlRegs r s).rst = s.rst := rfl
@[simp] theorem ctrlRegs_dc (r : CtrlRegs) (s : State) : (ctrlRegs r s).dc = s.dc := rfl
@[simp] theorem ctrlRegs_cs (r : CtrlRegs) (s : State) : (ctrlRegs r s).cs = s.cs := rfl
@[simp] theorem ctrlRegs_seqPc (r : CtrlRegs) (s : State) : (ctrlRegs r s).seqPc = s.seqPc := rfl
@[simp] theorem ctrlRegs_fault (r : CtrlRegs) (s : State) : (ctrlRegs r s).fault = s.fault := rfl
@[simp] theorem ctrlRegs_result (r : CtrlRegs) (s : State) : (ctrlRegs r s).result = s.result := rfl
@[simp] theorem ctrlRegs_fb (r : CtrlRegs) (s : State) : (ctrlRegs r s).fb = s.fb := rfl
@[simp] theorem ctrlRegs_trace (r : CtrlRegs) (s : State) : (ctrlRegs r s).trace = s.trace := rfl
@[simp] theorem ctrlRegs_port (r : CtrlRegs) (s : State) : (ctrlRegs r s).port = s.port := rfl
@[simp] theorem ctrlRegs_wire (r : CtrlRegs) (s : State) : (ctrlRegs r s).wire = s.wire := rfl
@[simp] theorem ctrlRegs_ctrl (r : CtrlRegs) (s : State) : (ctrlRegs r s).ctrl = { s.ctrl with regs := r, pointer := .anywhere } := rfl
@[simp] theorem ctrlRegs_env (r : CtrlRegs) (s : State) : (ctrlRegs r s).env = s.env := rfl
@[simp] theorem ctrlRegs_freeCount (r : CtrlRegs) (s : State) : (ctrlRegs r s).freeCount = s.freeCount + 1 := rfl

@[simp] theorem ctrlOnWaking_life (b : Bool) (r : CtrlRegs) (s : State) : (ctrlOnWaking b r s).life = s.life := rfl
@[simp] theorem ctrlOnWaking_resX (b : Bool) (r : CtrlRegs) (s : State) : (ctrlOnWaking b r s).resX = s.resX := rfl
@[simp] theorem ctrlOnWaking_resY (b : Bool) (r : CtrlRegs) (s : State) : (ctrlOnWaking b r s).resY = s.resY := rfl
@[simp] theorem ctrlOnWaking_pw (b : Bool) (r : CtrlRegs) (s : State) : (ctrlOnWaking b r s).pw = s.pw := rfl
@[simp] theorem ctrlOnWaking_bsz (b : Bool) (r : CtrlRegs) (s : State) : (ctrlOnWaking b r s).bsz = s.bsz := rfl
@[simp] theorem ctrlOnWaking_bound (b : Bool) (r : CtrlRegs) (s : State) : (ctrlOnWaking b r s).bound = s.bound := rfl
@[simp] theorem ctrlOnWaking_pincfg (b : Bool) (r : CtrlRegs) (s : State) : (ctrlOnWaking b r s).pincfg = s.pincfg := rfl
@[simp] theorem ctrlOnWaking_rst (b : Bool) (r : CtrlRegs) (s : State) : (ctrlOnWaking b r s).rst = s.rst := rfl
@[simp] theorem ctrlOnWaking_dc (b : Bool) (r : CtrlRegs) (s : State) : (ctrlOnWaking b r s).dc = s.dc := rfl
@[simp] theorem ctrlOnWaking_cs (b : Bool) (r : CtrlRegs) (s : State) : (ctrlOnWaking b r s).cs = s.cs := rfl
@[simp] theorem ctrlOnWaking_seqPc (b : Bool) (r : CtrlRegs) (s : State) : (ctrlOnWaking b r s).seqPc = s.seqPc := rfl
@[simp] theorem ctrlOnWaking_fault (b : Bool) (r : CtrlRegs) (s : State) : (ctrlOnWaking b r s).fault = s.fault := rfl
@[simp] theorem ctrlOnWaking_result (b : Bool) (r : CtrlRegs) (s : State) : (ctrlOnWaking b r s).result = s.result := rfl
@[simp] theorem ctrlOnWaking_fb (b : Bool) (r : CtrlRegs) (s : State) : (ctrlOnWaking b r s).fb = s.fb := rfl
@[simp] theorem ctrlOnWaking_trace (b : Bool) (r : CtrlRegs) (s : State) : (ctrlOnWaking b r s).trace = s.trace := rfl
@[simp] theorem ctrlOnWaking_port (b : Bool) (r : CtrlRegs) (s : State) : (ctrlOnWaking b r s).port = s.port := rfl
@[simp] theorem ctrlOnWaking_wire (b : Bool) (r : CtrlRegs) (s : State) : (ctrlOnWaking b r s).wire = s.wire := rfl
@[simp] theorem ctrlOnWaking_ctrl (b : Bool) (r : CtrlRegs) (s : State) :
    (ctrlOnWaking b r s).ctrl = { s.ctrl with onWaking := if b then r else s.ctrl.onWaking } := rfl
@[simp] theorem ctrlOnWaking_env (b : Bool) (r : CtrlRegs) (s : State) : (ctrlOnWaking b r s).env = s.env := rfl
@[simp] theorem ctrlOnWaking_freeCount (b : Bool) (r : CtrlRegs) (s : State) : (ctrlOnWaking b r s).freeCount = s.freeCount := rfl

@[simp] theorem ctrlSleep_life (s : State) : (ctrlSleep s).life = s.life := rfl
@[simp] theorem ctrlSleep_resX (s : State) : (ctrlSleep s).resX = s.resX := rfl
@[simp] theorem ctrlSleep_resY (s : State) : (ctrlSleep s).resY = s.resY := rfl
@[simp] theorem ctrlSleep_pw (s : State) : (ctrlSleep s).pw = s.pw := rfl
@[simp] theorem ctrlSleep_bsz (s : State) : (ctrlSleep s).bsz = s.bsz := rfl
@[simp] theorem ctrlSleep_bound (s : State) : (ctrlSleep s).bound = s.bound := rfl
@[simp] theorem ctrlSleep_pincfg (s : State) : (ctrlSleep s).pincfg = s.pincfg := rfl
@[simp] theorem ctrlSleep_rst (s : State) : (ctrlSleep s).rst = s.rst := rfl
@[simp] theorem ctrlSleep_dc (s : State) : (ctrlSleep s).dc = s.dc := rfl
@[simp] theorem ctrlSleep_cs (s : State) : (ctrlSleep s).cs = s.cs := rfl
@[simp] theorem ctrlSleep_seqPc (s : State) : (ctrlSleep s).seqPc = s.seqPc := rfl
@[simp] theorem ctrlSleep_fault (s : State) : (ctrlSleep s).fault = s.fault := rfl
@[simp] theorem ctrlSleep_result (s : State) : (ctrlSleep s).result = s.result := rfl
@[simp] theorem ctrlSleep_fb (s : State) : (ctrlSleep s).fb = s.fb := rfl
@[simp] theorem ctrlSleep_trace (s : State) : (ctrlSleep s).trace = s.trace := rfl
@[simp] theorem ctrlSleep_port (s : State) : (ctrlSleep s).port = s.port := rfl
@[simp] theorem ctrlSleep_wire (s : State) : (ctrlSleep s).wire = s.wire := rfl
@[simp] theorem ctrlSleep_ctrl (s : State) : (ctrlSleep s).ctrl =
    { s.ctrl with
      regs := { s.ctrl.regs with asleep := true }
      onWaking := if !s.ctrl.regs.asleep then Config.freeWaking s.freeCount else s.ctrl.onWaking
      pointer := .anywhere } := rfl
@[simp] theorem ctrlSleep_env (s : State) : (ctrlSleep s).env = s.env := rfl
@[simp] theorem ctrlSleep_freeCount (s : State) : (ctrlSleep s).freeCount = s.freeCount + 1 := rfl

@[simp] theorem ctrlWake_life (s : State) : (ctrlWake s).life = s.life := rfl
@[simp] theorem ctrlWake_resX (s : State) : (ctrlWake s).resX = s.resX := rfl
@[simp] theorem ctrlWake_resY (s : State) : (ctrlWake s).resY = s.resY := rfl
@[simp] theorem ctrlWake_pw (s : State) : (ctrlWake s).pw = s.pw := rfl
@[simp] theorem ctrlWake_bsz (s : State) : (ctrlWake s).bsz = s.bsz := rfl
@[simp] theorem ctrlWake_bound (s : State) : (ctrlWake s).bound = s.bound := rfl
@[simp] theorem ctrlWake_pincfg (s : State) : (ctrlWake s).pincfg = s.pincfg := rfl
@[simp] theorem ctrlWake_rst (s : State) : (ctrlWake s).rst = s.rst := rfl
@[simp] theorem ctrlWake_dc (s : State) : (ctrlWake s).dc = s.dc := rfl
@[simp] theorem ctrlWake_cs (s : State) : (ctrlWake s).cs = s.cs := rfl
@[simp] theorem ctrlWake_seqPc (s : State) : (ctrlWake s).seqPc = s.seqPc := rfl
@[simp] theorem ctrlWake_fault (s : State) : (ctrlWake s).fault = s.fault := rfl
@[simp] theorem ctrlWake_result (s : State) : (ctrlWake s).result = s.result := rfl
@[simp] theorem ctrlWake_fb (s : State) : (ctrlWake s).fb = s.fb := rfl
@[simp] theorem ctrlWake_trace (s : State) : (ctrlWake s).trace = s.trace := rfl
@[simp] theorem ctrlWake_port (s : State) : (ctrlWake s).port = s.port := rfl
@[simp] theorem ctrlWake_wire (s : State) : (ctrlWake s).wire = s.wire := rfl
@[simp] theorem ctrlWake_env (s : State) : (ctrlWake s).env = s.env := rfl
@[simp] theorem ctrlWake_freeCount (s : State) : (ctrlWake s).freeCount = s.freeCount + 1 := rfl
@[simp] theorem ctrlWake_regs (s : State) : (ctrlWake s).ctrl.regs =
    if s.ctrl.regs.asleep then { s.ctrl.onWaking with asleep := false, unlock := s.ctrl.regs.unlock } else s.ctrl.regs := rfl
@[simp] theorem ctrlWake_onWaking (s : State) : (ctrlWake s).ctrl.onWaking = s.ctrl.onWaking := rfl
@[simp] theorem ctrlWake_window (s : State) : (ctrlWake s).ctrl.window = s.ctrl.window := rfl
@[simp] theorem ctrlWake_pointer (s : State) : (ctrlWake s).ctrl.pointer = .anywhere := rfl

@[simp] theorem ctrlWindow_life (w : Window) (cb rb : Bool) (p : Pointer) (s : State) :
    (ctrlWindow w cb rb p s).life = s.life := rfl
@[simp] theorem ctrlWindow_resX (w : Window) (cb rb : Bool) (p : Pointer) (s : State) :
    (ctrlWindow w cb rb p s).resX = s.resX := rfl
@[simp] theorem ctrlWindow_resY (w : Window) (cb rb : Bool) (p : Pointer) (s : State) :
    (ctrlWindow w cb rb p s).resY = s.resY := rfl
@[simp] theorem ctrlWindow_pw (w : Window) (cb rb : Bool) (p : Pointer) (s : State) :
    (ctrlWindow w cb rb p s).pw = s.pw := rfl
@[simp] theorem ctrlWindow_bsz (w : Window) (cb rb : Bool) (p : Pointer) (s : State) :
    (ctrlWindow w cb rb p s).bsz = s.bsz := rfl
@[simp] theorem ctrlWindow_bound (w : Window) (cb rb : Bool) (p : Pointer) (s : State) :
    (ctrlWindow w cb rb p s).bound = s.bound := rfl
@[simp] theorem ctrlWindow_pincfg (w : Window) (cb rb : Bool) (p : Pointer) (s : State) :
    (ctrlWindow w cb rb p s).pincfg = s.pincfg := rfl
@[simp] theorem ctrlWindow_rst (w : Window) (cb rb : Bool) (p : Pointer) (s : State) :
    (ctrlWindow w cb rb p s).rst = s.rst := rfl
@[simp] theorem ctrlWindow_dc (w : Window) (cb rb : Bool) (p : Pointer) (s : State) :
    (ctrlWindow w cb rb p s).dc = s.dc := rfl
@[simp] theorem ctrlWindow_cs (w : Window) (cb rb : Bool) (p : Pointer) (s : State) :
    (ctrlWindow w cb rb p s).cs = s.cs := rfl
@[simp] theorem ctrlWindow_seqPc (w : Window) (cb rb : Bool) (p : Pointer) (s : State) :
    (ctrlWindow w cb rb p s).seqPc = s.seqPc := rfl
@[simp] theorem ctrlWindow_fault (w : Window) (cb rb : Bool) (p : Pointer) (s : State) :
    (ctrlWindow w cb rb p s).fault = s.fault := rfl
@[simp] theorem ctrlWindow_result (w : Window) (cb rb : Bool) (p : Pointer) (s : State) :
    (ctrlWindow w cb rb p s).result = s.result := rfl
@[simp] theorem ctrlWindow_fb (w : Window) (cb rb : Bool) (p : Pointer) (s : State) :
    (ctrlWindow w cb rb p s).fb = s.fb := rfl
@[simp] theorem ctrlWindow_trace (w : Window) (cb rb : Bool) (p : Pointer) (s : State) :
    (ctrlWindow w cb rb p s).trace = s.trace := rfl
@[simp] theorem ctrlWindow_port (w : Window) (cb rb : Bool) (p : Pointer) (s : State) :
    (ctrlWindow w cb rb p s).port = s.port := rfl
@[simp] theorem ctrlWindow_wire (w : Window) (cb rb : Bool) (p : Pointer) (s : State) :
    (ctrlWindow w cb rb p s).wire = s.wire := rfl
@[simp] theorem ctrlWindow_ctrl (w : Window) (cb rb : Bool) (p : Pointer) (s : State) : (ctrlWindow w cb rb p s).ctrl = 
    { s.ctrl with window := w, columnsBarred := cb, rowsBarred := rb, pointer := p } := rfl
@[simp] theorem ctrlWindow_env (w : Window) (cb rb : Bool) (p : Pointer) (s : State) :
    (ctrlWindow w cb rb p s).env = s.env := rfl
@[simp] theorem ctrlWindow_freeCount (w : Window) (cb rb : Bool) (p : Pointer) (s : State) :
    (ctrlWindow w cb rb p s).freeCount = s.freeCount := rfl

@[simp] theorem ctrlBarColumns_life (s : State) : (ctrlBarColumns s).life = s.life := rfl
@[simp] theorem ctrlBarColumns_resX (s : State) : (ctrlBarColumns s).resX = s.resX := rfl
@[simp] theorem ctrlBarColumns_resY (s : State) : (ctrlBarColumns s).resY = s.resY := rfl
@[simp] theorem ctrlBarColumns_pw (s : State) : (ctrlBarColumns s).pw = s.pw := rfl
@[simp] theorem ctrlBarColumns_bsz (s : State) : (ctrlBarColumns s).bsz = s.bsz := rfl
@[simp] theorem ctrlBarColumns_bound (s : State) : (ctrlBarColumns s).bound = s.bound := rfl
@[simp] theorem ctrlBarColumns_pincfg (s : State) : (ctrlBarColumns s).pincfg = s.pincfg := rfl
@[simp] theorem ctrlBarColumns_rst (s : State) : (ctrlBarColumns s).rst = s.rst := rfl
@[simp] theorem ctrlBarColumns_dc (s : State) : (ctrlBarColumns s).dc = s.dc := rfl
@[simp] theorem ctrlBarColumns_cs (s : State) : (ctrlBarColumns s).cs = s.cs := rfl
@[simp] theorem ctrlBarColumns_seqPc (s : State) : (ctrlBarColumns s).seqPc = s.seqPc := rfl
@[simp] theorem ctrlBarColumns_fault (s : State) : (ctrlBarColumns s).fault = s.fault := rfl
@[simp] theorem ctrlBarColumns_result (s : State) : (ctrlBarColumns s).result = s.result := rfl
@[simp] theorem ctrlBarColumns_fb (s : State) : (ctrlBarColumns s).fb = s.fb := rfl
@[simp] theorem ctrlBarColumns_trace (s : State) : (ctrlBarColumns s).trace = s.trace := rfl
@[simp] theorem ctrlBarColumns_port (s : State) : (ctrlBarColumns s).port = s.port := rfl
@[simp] theorem ctrlBarColumns_wire (s : State) : (ctrlBarColumns s).wire = s.wire := rfl
@[simp] theorem ctrlBarColumns_ctrl (s : State) : (ctrlBarColumns s).ctrl = { s.ctrl with columnsBarred := true } := rfl
@[simp] theorem ctrlBarColumns_env (s : State) : (ctrlBarColumns s).env = s.env := rfl
@[simp] theorem ctrlBarColumns_freeCount (s : State) : (ctrlBarColumns s).freeCount = s.freeCount := rfl

@[simp] theorem ctrlBarRows_life (s : State) : (ctrlBarRows s).life = s.life := rfl
@[simp] theorem ctrlBarRows_resX (s : State) : (ctrlBarRows s).resX = s.resX := rfl
@[simp] theorem ctrlBarRows_resY (s : State) : (ctrlBarRows s).resY = s.resY := rfl
@[simp] theorem ctrlBarRows_pw (s : State) : (ctrlBarRows s).pw = s.pw := rfl
@[simp] theorem ctrlBarRows_bsz (s : State) : (ctrlBarRows s).bsz = s.bsz := rfl
@[simp] theorem ctrlBarRows_bound (s : State) : (ctrlBarRows s).bound = s.bound := rfl
@[simp] theorem ctrlBarRows_pincfg (s : State) : (ctrlBarRows s).pincfg = s.pincfg := rfl
@[simp] theorem ctrlBarRows_rst (s : State) : (ctrlBarRows s).rst = s.rst := rfl
@[simp] theorem ctrlBarRows_dc (s : State) : (ctrlBarRows s).dc = s.dc := rfl
@[simp] theorem ctrlBarRows_cs (s : State) : (ctrlBarRows s).cs = s.cs := rfl
@[simp] theorem ctrlBarRows_seqPc (s : State) : (ctrlBarRows s).seqPc = s.seqPc := rfl
@[simp] theorem ctrlBarRows_fault (s : State) : (ctrlBarRows s).fault = s.fault := rfl
@[simp] theorem ctrlBarRows_result (s : State) : (ctrlBarRows s).result = s.result := rfl
@[simp] theorem ctrlBarRows_fb (s : State) : (ctrlBarRows s).fb = s.fb := rfl
@[simp] theorem ctrlBarRows_trace (s : State) : (ctrlBarRows s).trace = s.trace := rfl
@[simp] theorem ctrlBarRows_port (s : State) : (ctrlBarRows s).port = s.port := rfl
@[simp] theorem ctrlBarRows_wire (s : State) : (ctrlBarRows s).wire = s.wire := rfl
@[simp] theorem ctrlBarRows_ctrl (s : State) : (ctrlBarRows s).ctrl = { s.ctrl with rowsBarred := true } := rfl
@[simp] theorem ctrlBarRows_env (s : State) : (ctrlBarRows s).env = s.env := rfl
@[simp] theorem ctrlBarRows_freeCount (s : State) : (ctrlBarRows s).freeCount = s.freeCount := rfl

@[simp] theorem ctrlStore_life (bs : List Byte) (s : State) : (ctrlStore bs s).life = s.life := rfl
@[simp] theorem ctrlStore_resX (bs : List Byte) (s : State) : (ctrlStore bs s).resX = s.resX := rfl
@[simp] theorem ctrlStore_resY (bs : List Byte) (s : State) : (ctrlStore bs s).resY = s.resY := rfl
@[simp] theorem ctrlStore_pw (bs : List Byte) (s : State) : (ctrlStore bs s).pw = s.pw := rfl
@[simp] theorem ctrlStore_bsz (bs : List Byte) (s : State) : (ctrlStore bs s).bsz = s.bsz := rfl
@[simp] theorem ctrlStore_bound (bs : List Byte) (s : State) : (ctrlStore bs s).bound = s.bound := rfl
@[simp] theorem ctrlStore_pincfg (bs : List Byte) (s : State) : (ctrlStore bs s).pincfg = s.pincfg := rfl
@[simp] theorem ctrlStore_rst (bs : List Byte) (s : State) : (ctrlStore bs s).rst = s.rst := rfl
@[simp] theorem ctrlStore_dc (bs : List Byte) (s : State) : (ctrlStore bs s).dc = s.dc := rfl
@[simp] theorem ctrlStore_cs (bs : List Byte) (s : State) : (ctrlStore bs s).cs = s.cs := rfl
@[simp] theorem ctrlStore_seqPc (bs : List Byte) (s : State) : (ctrlStore bs s).seqPc = s.seqPc := rfl
@[simp] theorem ctrlStore_fault (bs : List Byte) (s : State) : (ctrlStore bs s).fault = s.fault := rfl
@[simp] theorem ctrlStore_result (bs : List Byte) (s : State) : (ctrlStore bs s).result = s.result := rfl
@[simp] theorem ctrlStore_fb (bs : List Byte) (s : State) : (ctrlStore bs s).fb = s.fb := rfl
@[simp] theorem ctrlStore_trace (bs : List Byte) (s : State) : (ctrlStore bs s).trace = s.trace := rfl
@[simp] theorem ctrlStore_port (bs : List Byte) (s : State) : (ctrlStore bs s).port = s.port := rfl
@[simp] theorem ctrlStore_wire (bs : List Byte) (s : State) : (ctrlStore bs s).wire = s.wire := rfl
@[simp] theorem ctrlStore_ctrl (bs : List Byte) (s : State) : (ctrlStore bs s).ctrl = { s.ctrl with gram := gramAfterWrite s.ctrl bs, pointer := .anywhere } := rfl
@[simp] theorem ctrlStore_env (bs : List Byte) (s : State) : (ctrlStore bs s).env = s.env := rfl
@[simp] theorem ctrlStore_freeCount (bs : List Byte) (s : State) : (ctrlStore bs s).freeCount = s.freeCount := rfl

@[simp] theorem ctrlUnknown_life (k : Stands) (s : State) : (ctrlUnknown k s).life = s.life := rfl
@[simp] theorem ctrlUnknown_resX (k : Stands) (s : State) : (ctrlUnknown k s).resX = s.resX := rfl
@[simp] theorem ctrlUnknown_resY (k : Stands) (s : State) : (ctrlUnknown k s).resY = s.resY := rfl
@[simp] theorem ctrlUnknown_pw (k : Stands) (s : State) : (ctrlUnknown k s).pw = s.pw := rfl
@[simp] theorem ctrlUnknown_bsz (k : Stands) (s : State) : (ctrlUnknown k s).bsz = s.bsz := rfl
@[simp] theorem ctrlUnknown_bound (k : Stands) (s : State) : (ctrlUnknown k s).bound = s.bound := rfl
@[simp] theorem ctrlUnknown_pincfg (k : Stands) (s : State) : (ctrlUnknown k s).pincfg = s.pincfg := rfl
@[simp] theorem ctrlUnknown_rst (k : Stands) (s : State) : (ctrlUnknown k s).rst = s.rst := rfl
@[simp] theorem ctrlUnknown_dc (k : Stands) (s : State) : (ctrlUnknown k s).dc = s.dc := rfl
@[simp] theorem ctrlUnknown_cs (k : Stands) (s : State) : (ctrlUnknown k s).cs = s.cs := rfl
@[simp] theorem ctrlUnknown_seqPc (k : Stands) (s : State) : (ctrlUnknown k s).seqPc = s.seqPc := rfl
@[simp] theorem ctrlUnknown_fault (k : Stands) (s : State) : (ctrlUnknown k s).fault = s.fault := rfl
@[simp] theorem ctrlUnknown_result (k : Stands) (s : State) : (ctrlUnknown k s).result = s.result := rfl
@[simp] theorem ctrlUnknown_fb (k : Stands) (s : State) : (ctrlUnknown k s).fb = s.fb := rfl
@[simp] theorem ctrlUnknown_trace (k : Stands) (s : State) : (ctrlUnknown k s).trace = s.trace := rfl
@[simp] theorem ctrlUnknown_port (k : Stands) (s : State) : (ctrlUnknown k s).port = s.port := rfl
@[simp] theorem ctrlUnknown_wire (k : Stands) (s : State) : (ctrlUnknown k s).wire = s.wire := rfl
@[simp] theorem ctrlUnknown_regs (k : Stands) (s : State) :
    (ctrlUnknown k s).ctrl.regs = if k.regs then s.ctrl.regs else Config.freeRegs s.freeCount := rfl
@[simp] theorem ctrlUnknown_onWaking (k : Stands) (s : State) :
    (ctrlUnknown k s).ctrl.onWaking = if k.regs then s.ctrl.onWaking else Config.freeWaking s.freeCount := rfl
@[simp] theorem ctrlUnknown_window (k : Stands) (s : State) : (ctrlUnknown k s).ctrl.window =
    { colStart := if k.columns then s.ctrl.window.colStart else (Config.freeWindow s.freeCount).colStart
      colStop := if k.columns then s.ctrl.window.colStop else (Config.freeWindow s.freeCount).colStop
      rowStart := if k.rows then s.ctrl.window.rowStart else (Config.freeWindow s.freeCount).rowStart
      rowStop := if k.rows then s.ctrl.window.rowStop else (Config.freeWindow s.freeCount).rowStop } := rfl
@[simp] theorem ctrlUnknown_columnsBarred (k : Stands) (s : State) :
    (ctrlUnknown k s).ctrl.columnsBarred = (!k.columns || s.ctrl.columnsBarred) := rfl
@[simp] theorem ctrlUnknown_rowsBarred (k : Stands) (s : State) :
    (ctrlUnknown k s).ctrl.rowsBarred = (!k.rows || s.ctrl.rowsBarred) := rfl
@[simp] theorem ctrlUnknown_pointer (k : Stands) (s : State) : (ctrlUnknown k s).ctrl.pointer = .anywhere := rfl
@[simp] theorem ctrlUnknown_gram (k : Stands) (s : State) : (ctrlUnknown k s).ctrl.gram = [] := rfl
@[simp] theorem ctrlUnknown_env (k : Stands) (s : State) : (ctrlUnknown k s).env = s.env := rfl
@[simp] theorem ctrlUnknown_freeCount (k : Stands) (s : State) : (ctrlUnknown k s).freeCount = s.freeCount + 1 := rfl

/-! The events that leave parts of CTRL unknown are `ctrlUnknown`, each with what stands. -/

@[simp] theorem ctrlUndescribed_eq (code : Byte) (s : State) :
    ctrlUndescribed code s = ctrlUnknown (windowStands code false) s := rfl
@[simp] theorem ctrlHalfFlushed_eq (s : State) : ctrlHalfFlushed s = ctrlUnknown ⟨true, false, false⟩ s := rfl
@[simp] theorem ctrlHalfProgrammed_eq (s : State) : ctrlHalfProgrammed s = ctrlUnknown ⟨false, true, true⟩ s := rfl
@[simp] theorem ctrlLost_eq (s : State) : ctrlLost s = ctrlUnknown ⟨false, false, false⟩ s := rfl
@[simp] theorem ctrlBroken_eq (code : Byte) (payload : List Byte) (s : State) : ctrlBroken code payload s =
    ctrlUnknown (windowStands code (isFlushCode code && (payload.isEmpty || (decode (.command code payload)).isOk))) s := rfl

@[simp] theorem resetPulse_trace (s : State) : (resetPulse s).trace = s.trace ++ resetEvents := rfl

end Sys2Proof.Machine
end

