-- ==== Sys2Proof/Laws/Memory.lean ====
section
/-! SUPPORT. The laws of the framebuffer memory and of the controller's memory: reading after writing, and that every
operation keeps the canonical form. -/

namespace Sys2Proof.Machine

theorem mem_interval {i a b : Nat} : i ∈ interval a b ↔ a ≤ i ∧ i < b := by
  simp only [interval, List.mem_range'_1]
  omega

/-! ### Cells of the framebuffer -/

theorem cellsRead_below {lo a : Nat} {cells : List Host.Cell} (h : risingFrom lo cells = true) (ha : a < lo) :
    cellsRead a cells = unlistedByte := by
  induction cells generalizing lo with
  | nil => rfl
  | cons c rest ih =>
    simp only [risingFrom, Bool.and_eq_true, decide_eq_true_eq] at h
    simp only [cellsRead]
    rw [if_neg (by omega), ih h.2 (by omega)]

theorem risingFrom_mono {lo lo' : Nat} {cells : List Host.Cell} (h : risingFrom lo cells = true) (hl : lo' ≤ lo) :
    risingFrom lo' cells = true := by
  cases cells with
  | nil => rfl
  | cons c rest =>
    simp only [risingFrom, Bool.and_eq_true, decide_eq_true_eq] at h ⊢
    exact ⟨by omega, h.2⟩

theorem risingFrom_le_of_mem {lo : Nat} {cells : List Host.Cell} {c : Host.Cell} (h : risingFrom lo cells = true)
    (hc : c ∈ cells) : lo ≤ c.1 := by
  induction cells generalizing lo with
  | nil => cases hc
  | cons d rest ih =>
    simp only [risingFrom, Bool.and_eq_true, decide_eq_true_eq] at h
    rcases List.mem_cons.mp hc with rfl | hm
    · exact h.1
    · have := ih h.2 hm
      omega

theorem risingFrom_filter {lo : Nat} {cells : List Host.Cell} (p : Host.Cell → Bool) (h : risingFrom lo cells = true) :
    risingFrom lo (cells.filter p) = true := by
  induction cells generalizing lo with
  | nil => rfl
  | cons c rest ih =>
    simp only [risingFrom, Bool.and_eq_true, decide_eq_true_eq] at h
    rw [List.filter_cons]
    split
    · simp only [risingFrom, Bool.and_eq_true, decide_eq_true_eq]
      exact ⟨h.1, ih h.2⟩
    · exact risingFrom_mono (ih h.2) (by omega)

theorem cellsRead_write_same {lo a : Nat} {v : Byte} {cells : List Host.Cell} (h : risingFrom lo cells = true) :
    cellsRead a (cellsWrite a v cells) = v := by
  induction cells generalizing lo with
  | nil =>
    simp only [cellsWrite]
    split
    · rename_i hv
      simp [cellsRead, hv]
    · simp [cellsRead]
  | cons c rest ih =>
    obtain ⟨b, w⟩ := c
    simp only [risingFrom, Bool.and_eq_true, decide_eq_true_eq] at h
    simp only [cellsWrite]
    split
    · rename_i hab
      split
      · rename_i hv
        simp only [cellsRead]
        rw [if_neg (by omega), cellsRead_below h.2 (by omega), hv]
      · simp [cellsRead]
    · split
      · rename_i hab
        subst hab
        split
        · rename_i hv
          rw [cellsRead_below h.2 (by omega), hv]
        · simp [cellsRead]
      · rename_i hne
        simp only [cellsRead]
        rw [if_neg hne, ih h.2]

theorem cellsRead_write_other {a a' : Nat} {v : Byte} (cells : List Host.Cell) (h : a' ≠ a) :
    cellsRead a' (cellsWrite a v cells) = cellsRead a' cells := by
  induction cells with
  | nil =>
    simp only [cellsWrite]
    split <;> simp [cellsRead, h]
  | cons c rest ih =>
    obtain ⟨b, w⟩ := c
    simp only [cellsWrite]
    split
    · split <;> simp [cellsRead, h]
    · split
      · rename_i hab
        subst hab
        split <;> simp [cellsRead, h]
      · simp [cellsRead, ih]

theorem risingFrom_write {lo a : Nat} {v : Byte} {cells : List Host.Cell} (h : risingFrom lo cells = true) (ha : lo ≤ a) :
    risingFrom lo (cellsWrite a v cells) = true := by
  induction cells generalizing lo with
  | nil =>
    simp only [cellsWrite]
    split <;> simp [risingFrom, ha]
  | cons c rest ih =>
    obtain ⟨b, w⟩ := c
    simp only [risingFrom, Bool.and_eq_true, decide_eq_true_eq] at h
    simp only [cellsWrite]
    split
    · split <;> simp only [risingFrom, Bool.and_eq_true, decide_eq_true_eq]
      · exact ⟨by omega, h.2⟩
      · exact ⟨ha, by omega, h.2⟩
    · split
      · rename_i hab
        subst hab
        split
        · exact risingFrom_mono h.2 (by omega)
        · simp only [risingFrom, Bool.and_eq_true, decide_eq_true_eq]
          exact ⟨ha, h.2⟩
      · simp only [risingFrom, Bool.and_eq_true, decide_eq_true_eq]
        exact ⟨h.1, ih h.2 (by omega)⟩

theorem mem_cellsWrite {a : Nat} {v : Byte} {cells : List Host.Cell} {c : Host.Cell} (h : c ∈ cellsWrite a v cells) :
    c ∈ cells ∨ (c = (a, v) ∧ v ≠ unlistedByte) := by
  induction cells with
  | nil =>
    simp only [cellsWrite] at h
    split at h <;> simp_all
  | cons d rest ih =>
    obtain ⟨b, w⟩ := d
    simp only [cellsWrite] at h
    split at h
    · split at h
      · exact .inl h
      · rcases List.mem_cons.mp h with rfl | h
        · exact .inr ⟨rfl, by assumption⟩
        · exact .inl h
    · split at h
      · split at h
        · exact .inl (List.mem_cons_of_mem _ h)
        · rcases List.mem_cons.mp h with rfl | h
          · exact .inr ⟨rfl, by assumption⟩
          · exact .inl (List.mem_cons_of_mem _ h)
      · rcases List.mem_cons.mp h with rfl | h
        · exact .inl (List.mem_cons_self ..)
        · rcases ih h with h | h
          · exact .inl (List.mem_cons_of_mem _ h)
          · exact .inr h

theorem cellsRead_filter_ge {n a : Nat} (cells : List Host.Cell) (h : n ≤ a) :
    cellsRead a (cells.filter fun c => n ≤ c.1) = cellsRead a cells := by
  induction cells with
  | nil => rfl
  | cons c rest ih =>
    rw [List.filter_cons]
    split
    · simp [cellsRead, ih]
    · rename_i hc
      simp only [decide_eq_true_eq] at hc
      simp only [cellsRead]
      rw [if_neg (by omega), ih]

theorem cellsRead_filter_lt {n a : Nat} (cells : List Host.Cell) (h : a < n) :
    cellsRead a (cells.filter fun c => n ≤ c.1) = unlistedByte := by
  induction cells with
  | nil => rfl
  | cons c rest ih =>
    rw [List.filter_cons]
    split
    · rename_i hc
      simp only [decide_eq_true_eq] at hc
      simp only [cellsRead]
      rw [if_neg (by omega), ih]
    · exact ih

theorem cellsRead_map_append (v : Byte) (a : Nat) (as : List Nat) (cells : List Host.Cell) :
    cellsRead a (as.map (fun a => (a, v)) ++ cells) = if a ∈ as then v else cellsRead a cells := by
  induction as with
  | nil => simp
  | cons b as ih =>
    simp only [List.map_cons, List.cons_append, cellsRead, List.mem_cons, ih]
    by_cases h : a = b <;> simp [h]

/-- Reading after `FB[i] <- v` for every `i < n`. -/
theorem cellsRead_fill (n a : Nat) (v : Byte) (cells : List Host.Cell) :
    cellsRead a (cellsFill n v cells) = if a < n then v else cellsRead a cells := by
  unfold cellsFill
  split
  · rename_i hv
    subst hv
    rw [List.nil_append]
    split
    · exact cellsRead_filter_lt cells (by assumption)
    · exact cellsRead_filter_ge cells (by omega)
  · rw [cellsRead_map_append]
    simp only [mem_interval, Nat.zero_le, true_and]
    split
    · rfl
    · exact cellsRead_filter_ge cells (by omega)

theorem risingFrom_ge_filter {n lo : Nat} {cells : List Host.Cell} (h : risingFrom lo cells = true) :
    risingFrom n (cells.filter fun c => n ≤ c.1) = true := by
  induction cells generalizing lo with
  | nil => rfl
  | cons c rest ih =>
    simp only [risingFrom, Bool.and_eq_true, decide_eq_true_eq] at h
    rw [List.filter_cons]
    split
    · rename_i hc
      simp only [decide_eq_true_eq] at hc
      simp only [risingFrom, Bool.and_eq_true, decide_eq_true_eq]
      exact ⟨hc, risingFrom_filter _ h.2⟩
    · exact ih h.2

theorem risingFrom_range'_append {v : Byte} {cells : List Host.Cell} (k lo : Nat)
    (h : risingFrom (lo + k) cells = true) :
    risingFrom lo ((List.range' lo k).map (fun a => (a, v)) ++ cells) = true := by
  induction k generalizing lo with
  | zero => simpa using h
  | succ k ih =>
    simp only [List.range'_succ, List.map_cons, List.cons_append, risingFrom, Bool.and_eq_true, decide_eq_true_eq]
    exact ⟨le_refl _, ih (lo + 1) (by rw [show lo + 1 + k = lo + (k + 1) by omega]; exact h)⟩

theorem risingFrom_fill {n : Nat} {v : Byte} {cells : List Host.Cell} (h : risingFrom 0 cells = true) :
    risingFrom 0 (cellsFill n v cells) = true := by
  unfold cellsFill
  split
  · exact risingFrom_mono (risingFrom_ge_filter h) (Nat.zero_le _)
  · exact risingFrom_range'_append _ 0 (by simpa using risingFrom_ge_filter h)

/-! ### Memories -/

@[simp] theorem Memory.write_size (m : Memory) (i : Nat) (v : Byte) : (m.write i v).size = m.size := rfl
@[simp] theorem Memory.fill_size (m : Memory) (n : Nat) (v : Byte) : (m.fill n v).size = m.size := rfl
@[simp] theorem Memory.fresh_size (n : Nat) : (Memory.fresh n).size = n := rfl

theorem Memory.wf_iff (m : Memory) : m.wf = true ↔
    risingFrom 0 m.cells = true ∧ ∀ c ∈ m.cells, c.1 < m.size ∧ c.2 ≠ unlistedByte := by
  simp [Memory.wf, List.all_eq_true]

theorem Memory.fresh_wf (n : Nat) : (Memory.fresh n).wf = true := rfl

/-- A write to an address that exists keeps the canonical form. -/
theorem Memory.write_wf {m : Memory} {i : Nat} (v : Byte) (h : m.wf = true) (hi : i < m.size) : (m.write i v).wf = true := by
  rw [Memory.wf_iff] at h ⊢
  refine ⟨risingFrom_write h.1 (Nat.zero_le _), fun c hc => ?_⟩
  rcases mem_cellsWrite hc with hm | ⟨rfl, hv⟩
  · exact h.2 c hm
  · exact ⟨hi, hv⟩

/-- Filling addresses that exist keeps the canonical form. -/
theorem Memory.fill_wf {m : Memory} {n : Nat} (v : Byte) (h : m.wf = true) (hn : n ≤ m.size) : (m.fill n v).wf = true := by
  rw [Memory.wf_iff] at h ⊢
  refine ⟨risingFrom_fill h.1, fun c hc => ?_⟩
  simp only [Memory.fill, cellsFill, List.mem_append, List.mem_filter] at hc
  rcases hc with hc | hc
  · split at hc
    · cases hc
    · rename_i hv
      obtain ⟨a, ha, rfl⟩ := List.mem_map.mp hc
      rw [mem_interval] at ha
      exact ⟨by show a < m.size; omega, hv⟩
  · exact h.2 c hc.1

/-- Reading after writing, everywhere. -/
theorem Memory.read_write {m : Memory} {i : Nat} (v : Byte) (h : m.wf = true) (j : Nat) :
    (m.write i v).read j = if j = i then (if i < m.size then some v else none) else m.read j := by
  rw [Memory.wf_iff] at h
  unfold Memory.read Memory.write
  by_cases hj : j = i
  · subst hj
    simp [cellsRead_write_same h.1]
  · simp [hj, cellsRead_write_other m.cells hj]

/-- Reading after filling, everywhere. -/
theorem Memory.read_fill (m : Memory) (n : Nat) (v : Byte) (j : Nat) :
    (m.fill n v).read j = if j < m.size then some (if j < n then v else cellsRead j m.cells) else none := by
  unfold Memory.read Memory.fill
  simp [cellsRead_fill]

/-! ### The framebuffer of a state -/

theorem fbSize_eq {s : State} {m : Memory} (h : s.fb = some m) : fbSize s = m.size := by simp [fbSize, h]

theorem readFb_isSome_iff (s : State) (i : Nat) : (readFb s i).isSome ↔ i < fbSize s := by
  unfold readFb fbSize
  cases s.fb <;> simp [Memory.read]

theorem readFb_writeFb {s : State} {i : Nat} (v : Byte) (h : fbWf s = true) (j : Nat) :
    readFb (writeFb s i v) j = if j = i then (if i < fbSize s then some v else none) else readFb s j := by
  unfold readFb writeFb fbSize
  unfold fbWf at h
  cases hm : s.fb with
  | none => simp
  | some m =>
    rw [hm] at h
    simp [Memory.read_write v h]

theorem writeFb_size (s : State) (i : Nat) (v : Byte) : fbSize (writeFb s i v) = fbSize s := by
  unfold fbSize writeFb
  cases s.fb <;> simp

theorem writeFb_wf {s : State} {i : Nat} (v : Byte) (h : fbWf s = true) (hi : i < fbSize s) : fbWf (writeFb s i v) = true := by
  unfold fbSize at hi
  unfold fbWf writeFb at *
  cases hm : s.fb with
  | none => rfl
  | some m =>
    rw [hm] at h hi
    exact Memory.write_wf v h (by simpa using hi)

/-! ### Cells of the controller's memory -/

theorem gramRead_write (a b : Nat) (v : Byte) (cells : List Host.Cell) :
    gramRead b (gramWrite a v cells) = if b = a then some v else gramRead b cells := by
  induction cells with
  | nil => simp [gramWrite, gramRead]
  | cons c rest ih =>
    obtain ⟨d, w⟩ := c
    simp only [gramWrite]
    split
    · simp [gramRead]
    · split
      · rename_i had
        subst had
        simp only [gramRead]
        split <;> rfl
      · rename_i hne
        simp only [gramRead, ih]
        by_cases hb : b = d
        · subst hb
          simp [Ne.symm hne]
        · simp [hb]

theorem risingFrom_gramWrite {lo a : Nat} {v : Byte} {cells : List Host.Cell} (h : risingFrom lo cells = true)
    (ha : lo ≤ a) : risingFrom lo (gramWrite a v cells) = true := by
  induction cells generalizing lo with
  | nil => simp [gramWrite, risingFrom, ha]
  | cons c rest ih =>
    obtain ⟨b, w⟩ := c
    simp only [risingFrom, Bool.and_eq_true, decide_eq_true_eq] at h
    simp only [gramWrite]
    split
    · simp only [risingFrom, Bool.and_eq_true, decide_eq_true_eq]
      exact ⟨ha, by omega, h.2⟩
    · split
      · rename_i hab
        subst hab
        simp only [risingFrom, Bool.and_eq_true, decide_eq_true_eq]
        exact ⟨ha, h.2⟩
      · simp only [risingFrom, Bool.and_eq_true, decide_eq_true_eq]
        exact ⟨h.1, ih h.2 (by omega)⟩

theorem mem_gramWrite {a : Nat} {v : Byte} {cells : List Host.Cell} {c : Host.Cell} (h : c ∈ gramWrite a v cells) :
    c ∈ cells ∨ c = (a, v) := by
  induction cells with
  | nil => simpa [gramWrite] using h
  | cons d rest ih =>
    obtain ⟨b, w⟩ := d
    simp only [gramWrite] at h
    split at h
    · rcases List.mem_cons.mp h with rfl | h
      · exact .inr rfl
      · exact .inl h
    · split at h
      · rcases List.mem_cons.mp h with rfl | h
        · exact .inr rfl
        · exact .inl (List.mem_cons_of_mem _ h)
      · rcases List.mem_cons.mp h with rfl | h
        · exact .inl (List.mem_cons_self ..)
        · rcases ih h with h | h
          · exact .inl (List.mem_cons_of_mem _ h)
          · exact .inr h

theorem gramRead_forget (w : Window) (a : Nat) (cells : List Host.Cell) :
    gramRead a (gramForget w cells) = if w.covers a then none else gramRead a cells := by
  unfold gramForget
  induction cells with
  | nil => simp [gramRead]
  | cons c rest ih =>
    obtain ⟨b, v⟩ := c
    rw [List.filter_cons]
    by_cases hb : w.covers b
    · simp only [hb, Bool.not_true, Bool.false_eq_true, if_false, ih, gramRead]
      by_cases hab : a = b
      · subst hab
        simp [hb]
      · simp [hab]
    · simp only [hb, Bool.not_false, if_true, gramRead, ih]
      by_cases hab : a = b
      · subst hab
        simp [hb]
      · simp [hab]

theorem gramWf_iff (s : State) : gramWf s = true ↔
    risingFrom 0 s.ctrl.gram = true ∧ ∀ c ∈ s.ctrl.gram, c.1 < 65536 := by
  simp [gramWf, List.all_eq_true]

/-- Forgetting cells keeps the canonical form of the controller's memory. -/
theorem gramForget_canonical {w : Window} {cells : List Host.Cell}
    (h : risingFrom 0 cells = true ∧ ∀ c ∈ cells, c.1 < 65536) :
    risingFrom 0 (gramForget w cells) = true ∧ ∀ c ∈ gramForget w cells, c.1 < 65536 :=
  ⟨risingFrom_filter _ h.1, fun c hc => h.2 c (List.mem_filter.mp hc).1⟩

/-- Storing bytes one by one at addresses of a row byte and a column byte keeps the canonical form. -/
theorem gramWrites_canonical {α : Type} (key : α → Nat) (val : α → Byte) (l : List α) (hk : ∀ a ∈ l, key a < 65536)
    {cells : List Host.Cell} (h : risingFrom 0 cells = true ∧ ∀ c ∈ cells, c.1 < 65536) :
    risingFrom 0 (l.foldr (fun a acc => gramWrite (key a) (val a) acc) cells) = true ∧
      ∀ c ∈ l.foldr (fun a acc => gramWrite (key a) (val a) acc) cells, c.1 < 65536 := by
  induction l with
  | nil => exact h
  | cons a l ih =>
    have ih := ih fun b hb => hk b (List.mem_cons_of_mem _ hb)
    refine ⟨risingFrom_gramWrite ih.1 (Nat.zero_le _), fun c hc => ?_⟩
    rcases mem_gramWrite hc with hm | rfl
    · exact ih.2 c hm
    · exact hk a (List.mem_cons_self ..)

/-- A byte of a payload that a window holds lands inside the window. -/
theorem gramKey_lt {w : Window} {j : Nat} (hj : j < w.wide * w.high) :
    gramKey (w.rowStart.toNat + j / w.wide) (w.colStart.toNat + j % w.wide) < 65536 := by
  have hw : 0 < w.wide := by
    rcases Nat.eq_zero_or_pos w.wide with h | h
    · simp [h] at hj
    · exact h
  have h₁ : j / w.wide < w.high := Nat.div_lt_of_lt_mul hj
  have h₂ : j % w.wide < w.wide := Nat.mod_lt _ hw
  have h₃ := w.rowStop.isLt
  have h₄ := w.colStop.isLt
  simp only [Window.wide, Window.high, gramKey] at *
  omega

/-- An exact fill of a window keeps the canonical form. -/
theorem gramFill_canonical {w : Window} {p : List Byte} {cells : List Host.Cell} (hp : p.length ≤ w.wide * w.high)
    (h : risingFrom 0 cells = true ∧ ∀ c ∈ cells, c.1 < 65536) :
    risingFrom 0 (gramFill w p cells) = true ∧ ∀ c ∈ gramFill w p cells, c.1 < 65536 := by
  refine gramWrites_canonical (fun bj : Byte × Nat => gramKey (w.rowStart.toNat + bj.2 / w.wide) (w.colStart.toNat + bj.2 % w.wide))
    (fun bj => bj.1) p.zipIdx (fun bj hbj => ?_) (gramForget_canonical h)
  have := List.snd_lt_of_mem_zipIdx hbj
  exact gramKey_lt (by omega)

/-- A memory write keeps the canonical form of the controller's memory. -/
theorem ctrlStore_gramWf {p : List Byte} {s : State} (h : gramWf s = true) : gramWf (ctrlStore p s) = true := by
  rw [gramWf_iff] at *
  show risingFrom 0 (gramAfterWrite s.ctrl p) = true ∧ ∀ c ∈ gramAfterWrite s.ctrl p, c.1 < 65536
  unfold gramAfterWrite
  simp only
  split
  · exact ⟨rfl, fun c hc => by cases hc⟩
  · split
    · rename_i hf
      exact gramFill_canonical (le_of_eq hf.2.2) h
    · exact gramForget_canonical h

/-- Waking keeps the canonical form of the controller's memory. -/
theorem ctrlWake_gramWf {s : State} (h : gramWf s = true) : gramWf (ctrlWake s) = true := by
  rw [gramWf_iff] at *
  show risingFrom 0 (if s.ctrl.regs.asleep then [] else s.ctrl.gram) = true ∧
    ∀ c ∈ (if s.ctrl.regs.asleep then [] else s.ctrl.gram), c.1 < 65536
  split
  · exact ⟨rfl, fun c hc => by cases hc⟩
  · exact h

/-- An event that leaves CTRL's memory unknown keeps its canonical form. -/
theorem ctrlUnknown_gramWf (k : Stands) (s : State) : gramWf (ctrlUnknown k s) = true := rfl

/-- Reading after storing bytes one by one: the first byte stored at the address, or what was there. -/
theorem gramRead_writes {α : Type} (key : α → Nat) (val : α → Byte) (l : List α) (a : Nat) (cells : List Host.Cell) :
    gramRead a (l.foldr (fun b acc => gramWrite (key b) (val b) acc) cells) =
      match l.find? fun b => decide (a = key b) with
      | some b => some (val b)
      | none => gramRead a cells := by
  induction l with
  | nil => rfl
  | cons b l ih =>
    simp only [List.foldr_cons, gramRead_write, List.find?_cons, ih]
    by_cases h : a = key b <;> simp [h]

end Sys2Proof.Machine
end

