-- ==== Sys2Proof/Laws/Ops.lean ====
section
/-! SUPPORT. For each shared operation what it can do, said once: how a request can end, what a pixel write, a drawing
loop, a phase and a `Send` leave. -/

namespace Sys2Proof.Machine

/-! ### Parts of a request -/

@[simp] theorem andThen_done {α β : Type} (a : α) (s : State) (k : α → State → Res β) :
    (Res.done a s).andThen k = k a s := rfl
@[simp] theorem andThen_raised {α β : Type} (e : Err) (s : State) (k : α → State → Res β) :
    (Res.raised e s : Res α).andThen k = .raised e s := rfl
@[simp] theorem andThen_stopped {α β : Type} (f : Fault) (k : α → State → Res β) :
    (Res.stopped f : Res α).andThen k = .stopped f := rfl
@[simp] theorem answer_done {α : Type} (a : α) (s : State) (v : α → Result) : (Res.done a s).answer v = .done (v a) s := rfl
@[simp] theorem answer_raised {α : Type} (e : Err) (s : State) (v : α → Result) :
    (Res.raised e s : Res α).answer v = .raised e s := rfl
@[simp] theorem answer_stopped {α : Type} (f : Fault) (v : α → Result) : (Res.stopped f : Res α).answer v = .stopped f := rfl
@[simp] theorem onRaise_done {α : Type} (a : α) (s : State) (k : State → State) :
    (Res.done a s).onRaise k = .done a s := rfl
@[simp] theorem onRaise_raised {α : Type} (e : Err) (s : State) (k : State → State) :
    (Res.raised e s : Res α).onRaise k = .raised e (k s) := rfl
@[simp] theorem onRaise_stopped {α : Type} (f : Fault) (k : State → State) :
    (Res.stopped f : Res α).onRaise k = .stopped f := rfl
@[simp] theorem forEach_nil {α : Type} (f : α → State → Res Unit) (s : State) : forEach f [] s = .done () s := rfl
@[simp] theorem finish_done (v : Result) (s : State) : finish (.done v s) = .next { s with result := v } := rfl
@[simp] theorem finish_raised (e : Err) (s : State) : finish (.raised e s) = .next (takeError e s) := rfl
@[simp] theorem finish_stopped (f : Fault) : finish (.stopped f) = .fault f := rfl

theorem andThen_assoc {α β γ : Type} (r : Res α) (k : α → State → Res β) (l : β → State → Res γ) :
    (r.andThen k).andThen l = r.andThen fun a s => (k a s).andThen l := by
  cases r <;> rfl

theorem forEach_append {α : Type} (f : α → State → Res Unit) (as bs : List α) (s : State) :
    forEach f (as ++ bs) s = (forEach f as s).andThen fun _ t => forEach f bs t := by
  induction as generalizing s with
  | nil => rfl
  | cons a as ih =>
    simp only [List.cons_append, forEach, andThen_assoc]
    cases f a s <;> simp [ih]

/-- `P` holds of the state a part of a request ends in, completed or raised. -/
def Res.Ends {α : Type} (P : State → Prop) : Res α → Prop
  | .done _ s => P s
  | .raised _ s => P s
  | .stopped _ => True

theorem Res.Ends.imp {α : Type} {P Q : State → Prop} {r : Res α} (h : r.Ends P) (hi : ∀ s, P s → Q s) : r.Ends Q := by
  cases r <;> first | exact hi _ h | trivial

theorem Res.Ends.andThen {α β : Type} {P Q : State → Prop} {r : Res α} {k : α → State → Res β} (h : r.Ends P)
    (hd : ∀ a s, r = .done a s → P s → (k a s).Ends Q) (hr : ∀ e s, r = .raised e s → P s → Q s) : (r.andThen k).Ends Q := by
  cases r with
  | done a s => exact hd a s rfl h
  | raised e s => exact hr e s rfl h
  | stopped f => trivial

/-- A part with an effect on the state it raises in. -/
theorem Res.Ends.onRaise {α : Type} {P : State → Prop} {r : Res α} {k : State → State} (h : r.Ends P)
    (hk : ∀ s, P s → P (k s)) : (r.onRaise k).Ends P := by
  cases r <;> first | exact hk _ h | exact h

/-- A part that keeps a transitive relation to its start state, run after another one. -/
theorem Res.Ends.chain {α β : Type} (R : State → State → Prop) (htrans : ∀ s t u, R s t → R t u → R s u) {s : State}
    {r : Res α} {k : α → State → Res β} (h : r.Ends (R s)) (hk : ∀ a t, (k a t).Ends (R t)) : (r.andThen k).Ends (R s) :=
  h.andThen (fun a t _ ht => (hk a t).imp fun _ hu => htrans _ _ _ ht hu) fun _ _ _ ht => ht

theorem forEach_ends {α : Type} (R : State → State → Prop) (hrefl : ∀ s, R s s)
    (htrans : ∀ s t u, R s t → R t u → R s u) {f : α → State → Res Unit} (hf : ∀ a s, (f a s).Ends (R s)) (as : List α)
    (s : State) : (forEach f as s).Ends (R s) := by
  induction as generalizing s with
  | nil => exact hrefl s
  | cons a as ih => exact (hf a s).chain R htrans fun _ t => ih t

/-- A request that answers a next state completed there or took an error there. -/
theorem finish_next {r : Res Result} {t : State} (h : finish r = .next t) :
    (∃ v s, r = .done v s ∧ t = { s with result := v }) ∨ ∃ e s, r = .raised e s ∧ t = takeError e s := by
  cases r with
  | done v s => exact .inl ⟨v, s, rfl, by simpa using h.symm⟩
  | raised e s => exact .inr ⟨e, s, rfl, by simpa using h.symm⟩
  | stopped f => simp at h

theorem request_constructed {op : Op} {body : State → Res Result} {s : State} (h : s.life = .constructed) :
    request op body s = finish (body s) := by simp [request, h]

theorem request_violation {op : Op} {body : State → Res Result} {s : State} (h : s.life ≠ .constructed) :
    request op body s = .next (takeError (.lifecycleViolation op) s) := by simp [request, h]

/-! ### Drawing -/

/-- `t` differs from `s` in the bytes of the framebuffer only, and the buffer has kept its size. -/
def FbOnly (s t : State) : Prop := t = { s with fb := t.fb } ∧ fbSize t = fbSize s

theorem FbOnly.refl (s : State) : FbOnly s s := ⟨rfl, rfl⟩

theorem FbOnly.trans (s t u : State) (h : FbOnly s t) (k : FbOnly t u) : FbOnly s u := by
  refine ⟨?_, k.2.trans h.2⟩
  rw [k.1, h.1]

theorem writeFb_fbOnly (s : State) (i : Nat) (v : Byte) : FbOnly s (writeFb s i v) := ⟨rfl, writeFb_size s i v⟩

/-- What a pixel write can do: write one byte that existed, raise out of range, or stop for a byte that does not exist. -/
theorem setPixel_cases (x y : Nat) (c : Color) (s : State) :
    (∃ b, inRange s x y = true ∧ readFb s (pixelIndex s.pw.toNat x y) = some b ∧
      setPixel x y c s = .done () (writeFb s (pixelIndex s.pw.toNat x y) (put b x c))) ∨
    (inRange s x y = false ∧ setPixel x y c s = .raised (.coordOutOfRange x y) s) ∨
    (inRange s x y = true ∧ readFb s (pixelIndex s.pw.toNat x y) = none ∧
      setPixel x y c s = .stopped (.fbAbsent (pixelIndex s.pw.toNat x y))) := by
  unfold setPixel
  by_cases hr : inRange s x y
  · cases hb : readFb s (pixelIndex s.pw.toNat x y) with
    | some b => exact .inl ⟨b, hr, rfl, by simp [hr]⟩
    | none => exact .inr (.inr ⟨hr, rfl, by simp [hr]⟩)
  · exact .inr (.inl ⟨by simpa using hr, by simp [hr, outOfRange]⟩)

theorem setPixel_ends (x y : Nat) (c : Color) (s : State) : (setPixel x y c s).Ends (FbOnly s) := by
  rcases setPixel_cases x y c s with ⟨b, _, _, h⟩ | ⟨_, h⟩ | ⟨_, _, h⟩ <;> rw [h]
  · exact writeFb_fbOnly ..
  · exact FbOnly.refl s
  · trivial

theorem blit_ends (color : Env → Ref → Nat → Except Err Color) (x y : Nat) (r : Ref) (w h : Nat) (s : State) :
    (blit color x y r w h s).Ends (FbOnly s) := by
  refine forEach_ends FbOnly FbOnly.refl FbOnly.trans (fun k t => ?_) _ s
  cases color t.env r k with
  | ok c => exact setPixel_ends ..
  | error e => exact FbOnly.refl t

theorem drawChar_ends (x y : Nat) (ch : Byte) (f : Ref) (s : State) : (drawChar x y ch f s).Ends (FbOnly s) := by
  unfold drawChar
  split
  · exact (blit_ends ..).chain FbOnly FbOnly.trans fun _ t => FbOnly.refl t
  · exact FbOnly.refl s

theorem drawString_ends (y : Nat) (f : Ref) (chs : List Byte) (cur : Nat) (s : State) :
    (drawString y f chs cur s).Ends (FbOnly s) := by
  induction chs generalizing cur s with
  | nil => exact FbOnly.refl s
  | cons ch rest ih =>
    unfold drawString
    split
    · exact FbOnly.refl s
    · split
      · exact FbOnly.refl s
      · exact (drawChar_ends ..).chain FbOnly FbOnly.trans fun _ t => ih _ t

theorem fillFb_cases (c : Color) (s : State) :
    (s.bsz.toNat ≤ fbSize s ∧
      fillFb c s = .done () { s with fb := s.fb.map fun m => m.fill s.bsz.toNat (fillByte c) }) ∨
    (fbSize s < s.bsz.toNat ∧ fillFb c s = .stopped (.fbAbsent (fbSize s))) := by
  unfold fillFb withFb
  split
  · exact .inl ⟨by assumption, rfl⟩
  · exact .inr ⟨by omega, rfl⟩

/-! ### Sending -/

/-- `t` differs from `s` only in what sending touches, and the trace and the wire have only grown. -/
def SendOnly (s t : State) : Prop :=
  t = { s with dc := t.dc, cs := t.cs, trace := t.trace, wire := t.wire, env := { s.env with transmit := t.env.transmit } } ∧
    s.trace <+: t.trace ∧ s.wire <+: t.wire ∧ (t.cs = s.cs ∨ t.cs = .deasserted)

theorem SendOnly.refl (s : State) : SendOnly s s := ⟨rfl, List.prefix_refl _, List.prefix_refl _, .inl rfl⟩

theorem SendOnly.trans (s t u : State) (h : SendOnly s t) (k : SendOnly t u) : SendOnly s u := by
  refine ⟨?_, h.2.1.trans k.2.1, h.2.2.1.trans k.2.2.1, ?_⟩
  · rw [k.1, h.1]
  · rcases k.2.2.2 with hk | hk
    · rw [hk]
      exact h.2.2.2
    · exact .inr hk

theorem phaseSent_sendOnly (d : Bool) (bs : List Byte) (s : State) : SendOnly s (phaseSent d bs s) :=
  ⟨rfl, ⟨_, rfl⟩, List.prefix_refl _, .inr rfl⟩

theorem toCtrl_sendOnly (b : BusEvent) (s : State) : SendOnly s (toCtrl b s) :=
  ⟨rfl, List.prefix_refl _, ⟨_, rfl⟩, .inl rfl⟩

/-- What one phase can do. -/
theorem transmit_cases (d : Bool) (bs : List Byte) (code : Byte) (s : State) :
    (s.env.transmit.headD .ok = .ok ∧ transmit d bs code s = .done () (phaseSent d bs s)) ∨
    (s.env.transmit.headD .ok = .fail ∧ transmit d bs code s =
      .raised (.transportFailure (phaseOf d) code) (toCtrl (brokenEvent d bs code) (phaseSent d bs s))) ∨
    (s.env.transmit.headD .ok = .never ∧ transmit d bs code s = .stopped .transportSilent) := by
  unfold transmit
  cases h : s.env.transmit.headD .ok
  · exact .inl ⟨rfl, rfl⟩
  · exact .inr (.inl ⟨rfl, rfl⟩)
  · exact .inr (.inr ⟨rfl, rfl⟩)

theorem transmit_ends (d : Bool) (bs : List Byte) (code : Byte) (s : State) : (transmit d bs code s).Ends (SendOnly s) := by
  rcases transmit_cases d bs code s with ⟨_, h⟩ | ⟨_, h⟩ | ⟨_, h⟩ <;> rw [h]
  · exact phaseSent_sendOnly ..
  · exact SendOnly.trans _ _ _ (phaseSent_sendOnly ..) (toCtrl_sendOnly ..)
  · trivial

theorem sendPayload_ends (code : Byte) (bs : List Byte) (s : State) : (sendPayload code bs s).Ends (SendOnly s) := by
  cases bs with
  | nil => exact SendOnly.refl s
  | cons b bs => exact transmit_ends ..

theorem sendBytes_ends (code : Byte) (bs : List Byte) (s : State) : (sendBytes code bs s).Ends (SendOnly s) :=
  (transmit_ends ..).chain SendOnly SendOnly.trans fun _ _ =>
    (sendPayload_ends ..).chain SendOnly SendOnly.trans fun _ _ => toCtrl_sendOnly ..

theorem sendFrom_ends (code : Byte) (r : Ref) (n : Nat) (s : State) : (sendFrom code r n s).Ends (SendOnly s) := by
  unfold sendFrom
  split
  · exact sendBytes_ends ..
  · exact SendOnly.refl s

theorem sendFb_ends (s : State) : (sendFb s).Ends (SendOnly s) := by
  unfold sendFb withFb
  split
  · exact sendBytes_ends ..
  · trivial

theorem markIf_eq (b : Bool) (m : BusEvent) (s : State) :
    markIf b m s = { s with wire := s.wire ++ if b then [m] else [] } := by
  cases b <;> simp [markIf, toCtrl]

theorem markIf_false (m : BusEvent) (s : State) : markIf false m s = s := rfl

theorem markIf_sendOnly (b : Bool) (m : BusEvent) (s : State) : SendOnly s (markIf b m s) := by
  cases b
  · exact SendOnly.refl s
  · exact toCtrl_sendOnly m s

theorem sendColumns_ends (a b : Nat) (s : State) : (sendColumns a b s).Ends (SendOnly s) :=
  Res.Ends.chain SendOnly SendOnly.trans (sendBytes_ends ..) fun _ _ => markIf_sendOnly ..

theorem sendRows_ends (a b : Nat) (s : State) : (sendRows a b s).Ends (SendOnly s) :=
  Res.Ends.chain SendOnly SendOnly.trans (sendBytes_ends ..) fun _ _ => markIf_sendOnly ..

theorem flushSteps_ends (s : State) : (flushSteps s).Ends (SendOnly s) :=
  Res.Ends.chain SendOnly SendOnly.trans (sendColumns_ends ..) fun _ _ =>
    Res.Ends.chain SendOnly SendOnly.trans (sendRows_ends ..) fun _ t => sendFb_ends t

theorem flushFb_ends (s : State) : (flushFb s).Ends (SendOnly s) :=
  (flushSteps_ends s).onRaise fun _ h => SendOnly.trans _ _ _ h (toCtrl_sendOnly ..)

theorem transportOk_head {n : Nat} {s : State} (h : transportOk (n + 1) s = true) :
    s.env.transmit.headD .ok = .ok ∧ ((s.env.transmit.tail).take n).all (fun a => a == .ok) = true := by
  unfold transportOk at h
  cases hl : s.env.transmit with
  | nil => simp
  | cons a l => simpa [hl] using h

/-- A `Send` to whose phases the transport answers `Ok` completes. -/
theorem sendBytes_ok {code : Byte} {bs : List Byte} {s : State} (h : transportOk (sentEvents code bs).length s = true) :
    sendBytes code bs s = .done () (afterSend code bs s) := by
  cases bs with
  | nil =>
    obtain ⟨h₁, _⟩ := transportOk_head (n := 0) (by simpa [sentEvents] using h)
    have : transmit false [code] code s = .done () (phaseSent false [code] s) := by simp only [transmit, h₁]
    simp only [sendBytes, this, andThen_done, sendPayload]
    simp [afterSend, toCtrl, phaseSent, emit, sentEvents, dcOf]
  | cons b bs =>
    obtain ⟨h₁, h₂⟩ := transportOk_head (n := 1) (by simpa [sentEvents] using h)
    have k₁ : transmit false [code] code s = .done () (phaseSent false [code] s) := by simp only [transmit, h₁]
    have h₃ : (phaseSent false [code] s).env.transmit.headD .ok = .ok :=
      (transportOk_head (n := 0) (s := phaseSent false [code] s) (by simpa [transportOk] using h₂)).1
    have k₂ : transmit true (b :: bs) code (phaseSent false [code] s) =
        .done () (phaseSent true (b :: bs) (phaseSent false [code] s)) := by simp only [transmit, h₃]
    simp only [sendBytes, k₁, andThen_done, sendPayload, k₂]
    simp [afterSend, toCtrl, phaseSent, emit, sentEvents, dcOf, ← List.drop_one]

/-- A column window whose phases are answered `Ok`: the command, and the mark where an operand wraps. -/
theorem sendColumns_ok {a b : Nat} {s : State} (h : transportOk 2 s = true) :
    sendColumns a b s = .done () (markIf (wraps a b) .wrappedColumns
      (afterSend (Config.cmdCode .setCol) [colByte a, colByte b] s)) := by
  unfold sendColumns sendCmd
  rw [sendBytes_ok (by simpa [sentEvents] using h), andThen_done]

/-- A row window whose phases are answered `Ok`: the command, and the mark where an operand wraps. -/
theorem sendRows_ok {a b : Nat} {s : State} (h : transportOk 2 s = true) :
    sendRows a b s = .done () (markIf (wraps a b) .wrappedRows
      (afterSend (Config.cmdCode .setRow) [rowByte a, rowByte b] s)) := by
  unfold sendRows sendCmd
  rw [sendBytes_ok (by simpa [sentEvents] using h), andThen_done]

theorem transportOk_iff (n : Nat) (s : State) : transportOk n s = true ↔ ∀ a ∈ s.env.transmit.take n, a = .ok := by
  simp [transportOk, List.all_eq_true]

theorem transportOk_mono {m n : Nat} {s : State} (h : transportOk m s = true) (hn : n ≤ m) : transportOk n s = true := by
  rw [transportOk_iff] at *
  exact fun a ha => h a (List.take_subset_take_left _ hn ha)

/-- What is left of the transport's answers after a `Send` is still `Ok`. -/
theorem transportOk_after {m n : Nat} {code : Byte} {bs : List Byte} {s : State} (h : transportOk m s = true)
    (hm : (sentEvents code bs).length + n ≤ m) : transportOk n (afterSend code bs s) = true := by
  rw [transportOk_iff] at *
  intro a ha
  simp only [afterSend, List.take_drop] at ha
  exact h a (List.take_subset_take_left _ hm (List.mem_of_mem_drop ha))

end Sys2Proof.Machine
end

