-- ==== Sys2Proof/Laws/PerInstr.lean ====
section
/-! SUPPORT. The family `OpcodeByte`: the first byte of an instruction's encoding is the byte spec/opcode_table.json gives
its row (the `match` column), one lemma per constructor of `Instr`. -/

namespace Sys2Proof.Laws.OpcodeByte

/-- The first byte of an encoded form: the `op` field of a request word, or the command code. -/
def firstByte : Encoded → Byte
  | .request w => fieldOp w
  | .command code _ => code

/-- The `match` column of spec/opcode_table.json. -/
def tableByte : Instr → Byte
  | .init .. => 0x01
  | .deinit => 0x02
  | .hwreset => 0x03
  | .send .. => 0x10
  | .colwin .. => 0x11
  | .rowwin .. => 0x12
  | .setpix .. => 0x20
  | .getpix .. => 0x21
  | .fill .. => 0x22
  | .flush => 0x23
  | .hline .. => 0x30
  | .vline .. => 0x31
  | .bmp4 .. => 0x32
  | .bmp8 .. => 0x33
  | .char .. => 0x34
  | .str .. => 0x35
  | .modenorm => 0x40
  | .modeinv => 0x41
  | .modeon => 0x42
  | .modeoff => 0x43
  | .sleep => 0x44
  | .wake => 0x45
  | .graydef => 0x46
  | .graytab .. => 0x47
  | .setcon .. => 0x48
  | .setbri .. => 0x49
  | .cmdUnlock .. => 0xFD
  | .cmdSleepOn => 0xAE
  | .cmdClock .. => 0xB3
  | .cmdFuncsel .. => 0xAB
  | .cmdPrechargeV .. => 0xBB
  | .cmdPrecharge2 .. => 0xB6
  | .cmdVcomh .. => 0xBE
  | .cmdEnh1 .. => 0xB4
  | .cmdEnh2 .. => 0xD1
  | .cmdMux .. => 0xCA
  | .cmdExitPartial => 0xA9
  | .cmdSetCol .. => 0x15
  | .cmdSetRow .. => 0x75
  | .cmdOffset .. => 0xA2
  | .cmdStartline .. => 0xA1
  | .cmdRemap .. => 0xA0
  | .cmdSleepOff => 0xAF
  | .cmdGrayDefault => 0xB9
  | .cmdContrast .. => 0xC1
  | .cmdBrightness .. => 0xC7
  | .cmdWriteRam .. => 0x5C
  | .cmdNormal => 0xA6
  | .cmdInvert => 0xA7
  | .cmdAllOn => 0xA5
  | .cmdAllOff => 0xA4
  | .cmdGrayTable .. => 0xB8

/-- Bits 7 to 0 of a request word are its opcode. -/
theorem fieldOp_reqWord (o : Op) (a b c d e : BitVec 16) : fieldOp (reqWord o a b c d e) = Config.opcode o := by
  unfold fieldOp reqWord
  generalize Config.opcode o = op
  apply BitVec.eq_of_toNat_eq
  have := op.isLt
  simp only [BitVec.extractLsb'_toNat, BitVec.toNat_append, Nat.shiftRight_zero]
  rw [← Nat.shiftLeft_add_eq_or_of_lt (by omega), Nat.shiftLeft_eq]
  omega

/-- The first byte of `i`'s encoding is its row's. -/
def Statement (i : Instr) : Prop := firstByte (encode i) = tableByte i

theorem init (transport pins : Ref) (resX resY : Coord) : Statement (.init transport pins resX resY) := fieldOp_reqWord _ _ _ _ _ _
theorem deinit : Statement .deinit := fieldOp_reqWord _ _ _ _ _ _
theorem hwreset : Statement .hwreset := fieldOp_reqWord _ _ _ _ _ _
theorem send (code : Byte) (payload : Ref) (n : Coord) : Statement (.send code payload n) := fieldOp_reqWord _ _ _ _ _ _
theorem colwin (xStart xStop : Coord) : Statement (.colwin xStart xStop) := fieldOp_reqWord _ _ _ _ _ _
theorem rowwin (yStart yStop : Coord) : Statement (.rowwin yStart yStop) := fieldOp_reqWord _ _ _ _ _ _
theorem setpix (x y : Coord) (color : Color) : Statement (.setpix x y color) := fieldOp_reqWord _ _ _ _ _ _
theorem getpix (x y : Coord) : Statement (.getpix x y) := fieldOp_reqWord _ _ _ _ _ _
theorem fill (color : Color) : Statement (.fill color) := fieldOp_reqWord _ _ _ _ _ _
theorem flush : Statement .flush := fieldOp_reqWord _ _ _ _ _ _
theorem hline (x1 x2 y : Coord) (color : Color) : Statement (.hline x1 x2 y color) := fieldOp_reqWord _ _ _ _ _ _
theorem vline (y1 y2 x : Coord) (color : Color) : Statement (.vline y1 y2 x color) := fieldOp_reqWord _ _ _ _ _ _
theorem bmp4 (x y : Coord) (source : Ref) (w h : Coord) : Statement (.bmp4 x y source w h) := fieldOp_reqWord _ _ _ _ _ _
theorem bmp8 (x y : Coord) (source : Ref) (w h : Coord) : Statement (.bmp8 x y source w h) := fieldOp_reqWord _ _ _ _ _ _
theorem char (x y : Coord) (ch : Byte) (font : Ref) : Statement (.char x y ch font) := fieldOp_reqWord _ _ _ _ _ _
theorem str (x y : Coord) (string font : Ref) : Statement (.str x y string font) := fieldOp_reqWord _ _ _ _ _ _
theorem modenorm : Statement .modenorm := fieldOp_reqWord _ _ _ _ _ _
theorem modeinv : Statement .modeinv := fieldOp_reqWord _ _ _ _ _ _
theorem modeon : Statement .modeon := fieldOp_reqWord _ _ _ _ _ _
theorem modeoff : Statement .modeoff := fieldOp_reqWord _ _ _ _ _ _
theorem sleep : Statement .sleep := fieldOp_reqWord _ _ _ _ _ _
theorem wake : Statement .wake := fieldOp_reqWord _ _ _ _ _ _
theorem graydef : Statement .graydef := fieldOp_reqWord _ _ _ _ _ _
theorem graytab (table : Ref) : Statement (.graytab table) := fieldOp_reqWord _ _ _ _ _ _
theorem setcon (v : Byte) : Statement (.setcon v) := fieldOp_reqWord _ _ _ _ _ _
theorem setbri (v : Byte) : Statement (.setbri v) := fieldOp_reqWord _ _ _ _ _ _
theorem cmdUnlock (v : Byte) : Statement (.cmdUnlock v) := rfl
theorem cmdSleepOn : Statement .cmdSleepOn := rfl
theorem cmdClock (v : Byte) : Statement (.cmdClock v) := rfl
theorem cmdFuncsel (v : Byte) : Statement (.cmdFuncsel v) := rfl
theorem cmdPrechargeV (v : Byte) : Statement (.cmdPrechargeV v) := rfl
theorem cmdPrecharge2 (v : Byte) : Statement (.cmdPrecharge2 v) := rfl
theorem cmdVcomh (v : Byte) : Statement (.cmdVcomh v) := rfl
theorem cmdEnh1 (p : List Byte) : Statement (.cmdEnh1 p) := rfl
theorem cmdEnh2 (p : List Byte) : Statement (.cmdEnh2 p) := rfl
theorem cmdMux (v : Byte) : Statement (.cmdMux v) := rfl
theorem cmdExitPartial : Statement .cmdExitPartial := rfl
theorem cmdSetCol (start stop : Byte) : Statement (.cmdSetCol start stop) := rfl
theorem cmdSetRow (start stop : Byte) : Statement (.cmdSetRow start stop) := rfl
theorem cmdOffset (v : Byte) : Statement (.cmdOffset v) := rfl
theorem cmdStartline (v : Byte) : Statement (.cmdStartline v) := rfl
theorem cmdRemap (p : List Byte) : Statement (.cmdRemap p) := rfl
theorem cmdSleepOff : Statement .cmdSleepOff := rfl
theorem cmdGrayDefault : Statement .cmdGrayDefault := rfl
theorem cmdContrast (v : Byte) : Statement (.cmdContrast v) := rfl
theorem cmdBrightness (v : Byte) : Statement (.cmdBrightness v) := rfl
theorem cmdWriteRam (p : List Byte) : Statement (.cmdWriteRam p) := rfl
theorem cmdNormal : Statement .cmdNormal := rfl
theorem cmdInvert : Statement .cmdInvert := rfl
theorem cmdAllOn : Statement .cmdAllOn := rfl
theorem cmdAllOff : Statement .cmdAllOff := rfl
theorem cmdGrayTable (p : List Byte) : Statement (.cmdGrayTable p) := rfl

end Sys2Proof.Laws.OpcodeByte
end

