-- ==== Sys2Proof/Tests/Slice0.lean ====
section
/-! SUPPORT. The model's own tests: refused ill-formed terms, one decoded word per constructor, at most two steps per
instruction with the values of spec/95_test_vectors.md, and for every statement with hypotheses a witness that meets
them. -/

namespace Sys2Proof.Tests

open Sys2Proof.Machine

/-! ### Well-formedness: what each check refuses (30_encoding.md R92) -/

theorem test_wf_enh1_refuses : (Instr.cmdEnh1 [0xA0]).wellFormed = false := by decide
theorem test_wf_enh2_refuses : (Instr.cmdEnh2 [0x82, 0x20, 0x00]).wellFormed = false := by decide
theorem test_wf_remap_refuses : (Instr.cmdRemap []).wellFormed = false := by decide
theorem test_wf_grayTable_refuses : (Instr.cmdGrayTable (List.replicate 15 0)).wellFormed = false := by decide
theorem test_wf_writeRam_refuses : (Instr.cmdWriteRam []).wellFormed = false := by decide

/-! ### Decoding: a word written out for every constructor (30_encoding.md R92, R94, R95; words of 95_test_vectors.md
where it has one) -/

theorem test_decode_init : decode (.request 0x0000004001000002000101) = .ok (.init 1 2 256 64) := by decide
theorem test_decode_deinit : decode (.request 0x0000000000000000000002) = .ok .deinit := by decide
theorem test_decode_hwreset : decode (.request 0x0000000000000000000003) = .ok .hwreset := by decide
theorem test_decode_send : decode (.request 0x0000000000020011005C10) = .ok (.send 0x5C 0x11 2) := by decide
theorem test_decode_colwin : decode (.request 0x000000000000000A000011) = .ok (.colwin 0 10) := by decide
theorem test_decode_rowwin : decode (.request 0x000000000000000A000012) = .ok (.rowwin 0 10) := by decide
theorem test_decode_setpix : decode (.request 0x0000000000070003000220) = .ok (.setpix 2 3 7) := by decide
theorem test_decode_getpix : decode (.request 0x0000000000000003000221) = .ok (.getpix 2 3) := by decide
theorem test_decode_fill : decode (.request 0x0000000000000000000722) = .ok (.fill 7) := by decide
theorem test_decode_flush : decode (.request 0x0000000000000000000023) = .ok .flush := by decide
theorem test_decode_hline : decode (.request 0x0000000700030005000230) = .ok (.hline 2 5 3 7) := by decide
theorem test_decode_vline : decode (.request 0x0000000A00030003000131) = .ok (.vline 1 3 3 0xA) := by decide
theorem test_decode_bmp4 : decode (.request 0x0002000300100000000032) = .ok (.bmp4 0 0 0x10 3 2) := by decide
theorem test_decode_bmp8 : decode (.request 0x0002000200130000000133) = .ok (.bmp8 1 0 0x13 2 2) := by decide
theorem test_decode_char : decode (.request 0x0000003000430000000034) = .ok (.char 0 0 0x43 0x30) := by decide
theorem test_decode_str : decode (.request 0x0000003000200002000035) = .ok (.str 0 2 0x20 0x30) := by decide
theorem test_decode_modenorm : decode (.request 0x0000000000000000000040) = .ok .modenorm := by decide
theorem test_decode_modeinv : decode (.request 0x0000000000000000000041) = .ok .modeinv := by decide
theorem test_decode_modeon : decode (.request 0x0000000000000000000042) = .ok .modeon := by decide
theorem test_decode_modeoff : decode (.request 0x0000000000000000000043) = .ok .modeoff := by decide
theorem test_decode_sleep : decode (.request 0x0000000000000000000044) = .ok .sleep := by decide
theorem test_decode_wake : decode (.request 0x0000000000000000000045) = .ok .wake := by decide
theorem test_decode_graydef : decode (.request 0x0000000000000000000046) = .ok .graydef := by decide
theorem test_decode_graytab : decode (.request 0x0000000000000000001247) = .ok (.graytab 0x12) := by decide
theorem test_decode_setcon : decode (.request 0x0000000000000000008048) = .ok (.setcon 0x80) := by decide
theorem test_decode_setbri : decode (.request 0x0000000000000000001F49) = .ok (.setbri 0x1F) := by decide

/-- Bits 15 to 8 of a byte slot and unused slots are ignored (R94, R98). -/
theorem test_decode_ignored_bits : decode (.request 0xEEEEDDDD12070003000220) = .ok (.setpix 2 3 7) := by decide

theorem test_decode_illegal : decode (.request 0x000000000000000000007F) = .error (.illegalRequest 0x7F) := by decide

/-! The command bytes are those of 95_test_vectors.md P1's second listing and of R92. -/

theorem test_decode_cmdUnlock : decode (.command 0xFD [0x12]) = .ok (.cmdUnlock 0x12) := by decide
theorem test_decode_cmdSleepOn : decode (.command 0xAE []) = .ok .cmdSleepOn := by decide
theorem test_decode_cmdClock : decode (.command 0xB3 [0x91]) = .ok (.cmdClock 0x91) := by decide
theorem test_decode_cmdFuncsel : decode (.command 0xAB [0x01]) = .ok (.cmdFuncsel 0x01) := by decide
theorem test_decode_cmdPrechargeV : decode (.command 0xBB [0x1F]) = .ok (.cmdPrechargeV 0x1F) := by decide
theorem test_decode_cmdPrecharge2 : decode (.command 0xB6 [0x08]) = .ok (.cmdPrecharge2 0x08) := by decide
theorem test_decode_cmdVcomh : decode (.command 0xBE [0x07]) = .ok (.cmdVcomh 0x07) := by decide
theorem test_decode_cmdEnh1 : decode (.command 0xB4 [0xA0, 0xFD]) = .ok (.cmdEnh1 [0xA0, 0xFD]) := by decide
theorem test_decode_cmdEnh2 : decode (.command 0xD1 [0x82, 0x20]) = .ok (.cmdEnh2 [0x82, 0x20]) := by decide
theorem test_decode_cmdMux : decode (.command 0xCA [0x3F]) = .ok (.cmdMux 0x3F) := by decide
theorem test_decode_cmdExitPartial : decode (.command 0xA9 []) = .ok .cmdExitPartial := by decide
theorem test_decode_cmdSetCol : decode (.command 0x15 [0x1C, 0x9B]) = .ok (.cmdSetCol 0x1C 0x9B) := by decide
theorem test_decode_cmdSetRow : decode (.command 0x75 [0x00, 0x3F]) = .ok (.cmdSetRow 0x00 0x3F) := by decide
theorem test_decode_cmdOffset : decode (.command 0xA2 [0x05]) = .ok (.cmdOffset 0x05) := by decide
theorem test_decode_cmdStartline : decode (.command 0xA1 [0x06]) = .ok (.cmdStartline 0x06) := by decide
theorem test_decode_cmdRemap : decode (.command 0xA0 [0x14, 0x11]) = .ok (.cmdRemap [0x14, 0x11]) := by decide
theorem test_decode_cmdSleepOff : decode (.command 0xAF []) = .ok .cmdSleepOff := by decide
theorem test_decode_cmdGrayDefault : decode (.command 0xB9 []) = .ok .cmdGrayDefault := by decide
theorem test_decode_cmdContrast : decode (.command 0xC1 [0x7F]) = .ok (.cmdContrast 0x7F) := by decide
theorem test_decode_cmdBrightness : decode (.command 0xC7 [0x0F]) = .ok (.cmdBrightness 0x0F) := by decide
theorem test_decode_cmdWriteRam : decode (.command 0x5C [0xFF, 0xFE]) = .ok (.cmdWriteRam [0xFF, 0xFE]) := by decide
theorem test_decode_cmdNormal : decode (.command 0xA6 []) = .ok .cmdNormal := by decide
theorem test_decode_cmdInvert : decode (.command 0xA7 []) = .ok .cmdInvert := by decide
theorem test_decode_cmdAllOn : decode (.command 0xA5 []) = .ok .cmdAllOn := by decide
theorem test_decode_cmdAllOff : decode (.command 0xA4 []) = .ok .cmdAllOff := by decide
theorem test_decode_cmdGrayTable :
    decode (.command 0xB8 [0, 1, 2, 3, 4, 5, 6, 7, 8, 9, 10, 11, 12, 13, 14, 15]) =
      .ok (.cmdGrayTable [0, 1, 2, 3, 4, 5, 6, 7, 8, 9, 10, 11, 12, 13, 14, 15]) := by decide

theorem test_decode_wrong_length : decode (.command 0xAE [0x00]) = .error (.payloadLength .sleepOn 1) := by decide
theorem test_decode_unknown_command : decode (.command 0x00 []) = .error (.unknownCommand 0x00) := by decide

/-- The table's bits: a request row of 88 bits, a command row of 8 bits with a payload of zeros. -/
theorem test_tableWord : decodeTableWord 88 0x0000000000070003000220 = some (.setpix 2 3 7) ∧
    decodeTableWord 8 0x15 = some (.cmdSetCol 0 0) ∧ decodeTableWord 8 0xA6 = some .cmdNormal ∧
    decodeTableWord 8 0x5C = some (.cmdWriteRam [0]) := by decide

/-! ### Helpers: small states and what a step leaves -/

/-- An `a` by `b` instance with a zero framebuffer, an empty trace and the given environment (95_test_vectors.md,
"Conventions"). -/
def inst (a b : Coord) (env : Env) : State :=
  { State.reset with
    life := .constructed, resX := a, resY := b
    pw := BitVec.ofNat 16 (packedWidth a), bsz := BitVec.ofNat 32 (bufferSize a b)
    bound := true, pincfg := true, seqPc := 25, fb := some (Memory.fresh (bufferSize a b)), env := env }

/-- The same with the framebuffer bytes given. -/
def instWith (a b : Coord) (bytes : List Byte) (env : Env) : State :=
  { inst a b env with fb := some (bytes.zipIdx.foldl (fun m c => m.write c.2 c.1) (Memory.fresh (bufferSize a b))) }

/-- Streams behind the handles 0x10 upward, the font `F3` of 95_test_vectors.md behind 0x30. -/
def withStreams (l : List (Ref × List Byte)) : Env :=
  { Env.reset with
    streams := l ++ [(0x41, [0x11, 0x11, 0x11]), (0x42, [0x22, 0x22, 0x22]), (0x43, [0x12, 0x34, 0x56])]
    fonts := [(0x30, ⟨0x41, 0x43, [(0x41, ⟨3, 2, 0x41⟩), (0x42, ⟨3, 2, 0x42⟩), (0x43, ⟨3, 2, 0x43⟩)]⟩)] }

/-- The transport's answers. -/
def answering (l : List PhaseAnswer) : Env := { Env.reset with transmit := l }

/-- One step's outcome by a reader of the next state. -/
def after {α : Type} (o : Host.Outcome State Fault Refusal) (read : State → α) : Option α :=
  match o with
  | .next s => some (read s)
  | _ => none

/-- The framebuffer's bytes. -/
def bytes (s : State) : List Byte := fbBytes s s.bsz.toNat

/-- A controller awake or asleep. -/
def ctrlState (asleep : Bool) : State :=
  { State.reset with ctrl := { Ctrl.reset with regs := { CtrlRegs.reset with asleep := asleep } } }

/-! ### The packed pixel byte (E1 to E8, E11) -/

theorem test_put : put 0x00 0 0xA = 0xA0 ∧ put 0xA0 1 0x5 = 0xA5 ∧ put 0xFF 4 0x0 = 0x0F ∧ put 0xFF 5 0x13 = 0xF3 ∧
    put 0x3C 2 0xFF = 0xFC ∧ put 0x3C 7 0xFF = 0x3F := by decide
theorem test_get : get 0x7A 2 = 7 ∧ get 0x7A 3 = 10 := by decide
theorem test_fillByte : fillByte 0x07 = 0x77 ∧ fillByte 0x3C = 0xCC ∧ fillByte 0xF0 = 0x00 ∧ fillByte 0xFF = 0xFF := by
  decide

/-! ### Steps of the requests -/

/-- P2, request 1: the events of a 4 by 2 construction, written out. -/
theorem test_init_trace : after (exec (.init 1 2 4 2) State.reset) (·.trace) = some
    [.dircfg, .pin (.rst .a), .delay .hold1, .pin (.rst .r), .delay .hold2, .pin (.rst .a), .delay .settle,
     .tx false [0xFD], .tx true [Config.kUnlock], .tx false [0xAE], .tx false [0xB3], .tx true [Config.kClock],
     .tx false [0xAB], .tx true [Config.kFuncsel], .tx false [0xBB], .tx true [Config.kPrechargeV],
     .tx false [0xB6], .tx true [Config.kPrecharge2], .tx false [0xBE], .tx true [Config.kVcomh],
     .tx false [0xB4], .tx true [Config.kEnh1Byte 0, Config.kEnh1Byte 1],
     .tx false [0xD1], .tx true [Config.kEnh2Byte 0, Config.kEnh2Byte 1],
     .tx false [0xCA], .tx true [1], .tx false [0xA9], .tx false [0x15], .tx true [28, 29],
     .tx false [0x75], .tx true [0, 1], .tx false [0xA2], .tx true [0], .tx false [0xA1], .tx true [0],
     .tx false [0xA0], .tx true [Config.kRemapByte 0, Config.kRemapByte 1], .tx false [0xAF], .tx false [0xB9],
     .tx false [0xC1], .tx true [Config.kContrastDefault],
     .tx false [0xC7], .tx true [Config.kBrightnessDefault &&& 0x0F],
     .tx false [0x15], .tx true [28, 29], .tx false [0x75], .tx true [0, 1],
     .tx false [0x5C], .tx true [0, 0, 0, 0], .tx false [0xA6]] := rfl

/-- T96: the third phase of the program fails. -/
theorem test_init_third_phase_fails :
    after (exec (.init 1 2 256 64) { State.reset with env := answering [.ok, .ok, .fail] })
      (fun s => (s.seqPc, s.result, s.bound, s.life, s.trace.length)) =
    some (1, .raised (.transportFailure .command 0xAE), false, .unconstructed, 10) := by decide

/-- T98. -/
theorem test_deinit : after (exec .deinit (inst 4 2 Env.reset)) (fun s => (s.life, s.bound, s.fb, s.trace)) =
    some (.tornDown, false, none, [.tx false [0xAE]]) := by decide

/-- T100. -/
theorem test_hwreset : after (exec .hwreset (inst 4 2 Env.reset)) (fun s => (s.rst, s.trace)) =
    some (.a, [.pin (.rst .a), .delay .hold1, .pin (.rst .r), .delay .hold2, .pin (.rst .a), .delay .settle]) := by decide

/-- T45. -/
theorem test_send : after (exec (.send 0xC1 0x14 1) (inst 4 2 (withStreams [(0x14, [0x7F])]))) (·.trace) =
    some [.tx false [0xC1], .tx true [0x7F]] := by decide

/-- T47. -/
theorem test_send_underrun :
    after (exec (.send 0x15 0x14 2) (inst 4 2 (withStreams [(0x14, [28])]))) (fun s => (s.result, s.trace)) =
    some (.raised (.sourceUnderrun 0x14 1), []) := by decide

/-- T21. -/
theorem test_colwin : after (exec (.colwin 0 127) (inst 4 2 Env.reset)) (·.trace) =
    some [.tx false [0x15], .tx true [28, 155]] := by decide

/-- T23. -/
theorem test_colwin_wraps : after (exec (.colwin 100 130) (inst 4 2 Env.reset)) (·.trace) =
    some [.tx false [0x15], .tx true [128, 30]] := by decide

/-- T24's bytes, and the mark by which CTRL applies no R77 to them (U6). -/
theorem test_colwin_marks : after (exec (.colwin 128 129) (inst 4 2 Env.reset)) (·.wire) =
    some [.command 0x15 [28, 29], .wrappedColumns] := by decide

/-- T29. -/
theorem test_rowwin : after (exec (.rowwin 200 300) (inst 4 2 Env.reset)) (·.trace) =
    some [.tx false [0x75], .tx true [72, 44]] := by decide

/-- T3. -/
theorem test_setpix_last : after (exec (.setpix 255 63 0xFF) (inst 256 64 Env.reset)) (readFb · 8191) =
    some (some 0x0F) := by decide

/-- T11. -/
theorem test_setpix_padding :
    after (exec (.setpix 4 1 9) (instWith 5 2 [0x33, 0x33, 0x33, 0x33, 0x33, 0x33] Env.reset)) bytes =
    some [0x33, 0x33, 0x33, 0x33, 0x33, 0x93] := by decide

/-- T7, on a 4 by 2 instance. -/
theorem test_getpix : after (exec (.getpix 2 1) (instWith 4 2 [0, 0, 0, 0x7A] Env.reset)) (·.result) =
    some (.okPixel 7) := by decide

/-- T12. -/
theorem test_getpix_padding : after (exec (.getpix 5 0) (inst 5 2 Env.reset)) (·.result) =
    some (.raised (.coordOutOfRange 5 0)) := by decide

/-- T37 and T57's width. -/
theorem test_fill : after (exec (.fill 0xA5) (inst 4 2 Env.reset)) bytes = some [0x55, 0x55, 0x55, 0x55] := by decide

/-- T34. -/
theorem test_fill_masks : after (exec (.fill 0x10) (instWith 4 2 [1, 2, 3, 4] Env.reset)) bytes =
    some [0, 0, 0, 0] := by decide

/-- T38. -/
theorem test_flush : after (exec .flush (instWith 4 2 [0x12, 0x30, 0x45, 0x60] Env.reset)) (·.trace) =
    some [.tx false [0x15], .tx true [28, 29], .tx false [0x75], .tx true [0, 1], .tx false [0x5C],
      .tx true [0x12, 0x30, 0x45, 0x60]] := by decide

/-- T41. -/
theorem test_flush_fails : after (exec .flush (inst 4 2 (answering [.ok, .ok, .ok, .fail])))
    (fun s => (s.result, s.trace.length)) = some (.raised (.transportFailure .payload 0x75), 4) := by decide

/-- T60. -/
theorem test_hline : after (exec (.hline 1 4 1 0xC) (inst 8 2 Env.reset)) bytes =
    some [0x00, 0x00, 0x00, 0x00, 0x0C, 0xCC, 0x00, 0x00] := by decide

/-- T64. -/
theorem test_hline_edge : after (exec (.hline 6 10 1 2) (inst 8 2 Env.reset)) (fun s => (bytes s, s.fault)) =
    some ([0x00, 0x00, 0x00, 0x00, 0x00, 0x00, 0x00, 0x22], some (.coordOutOfRange 8 1)) := by decide

/-- T65. -/
theorem test_vline : after (exec (.vline 1 3 3 0xA) (inst 4 4 Env.reset)) bytes =
    some [0x00, 0x00, 0x00, 0x0A, 0x00, 0x0A, 0x00, 0x00] := by decide

/-- T67. -/
theorem test_vline_edge : after (exec (.vline 2 6 1 0xB) (inst 4 4 Env.reset)) (fun s => (bytes s, s.fault)) =
    some ([0x00, 0x00, 0x00, 0x00, 0x0B, 0x00, 0x0B, 0x00], some (.coordOutOfRange 1 4)) := by decide

/-- T51. -/
theorem test_bmp4 : after (exec (.bmp4 1 0 0x10 3 2) (inst 4 2 (withStreams [(0x10, [0x12, 0x34, 0x56])]))) bytes =
    some [0x01, 0x23, 0x04, 0x56] := by decide

/-- T54. -/
theorem test_bmp4_underrun : after (exec (.bmp4 0 0 0x10 3 2) (inst 4 2 (withStreams [(0x10, [0x12, 0x34])])))
    (fun s => (bytes s, s.result)) = some ([0x12, 0x30, 0x40, 0x00], .raised (.sourceUnderrun 0x10 2)) := by decide

/-- T57. -/
theorem test_bmp8 : after (exec (.bmp8 1 0 0x13 2 2) (inst 4 2 (withStreams [(0x13, [0xAB, 0xCD, 0x1F, 0xF0])]))) bytes =
    some [0x0A, 0xC0, 0x01, 0xF0] := by decide

/-- T59. -/
theorem test_bmp8_underrun : after (exec (.bmp8 0 0 0x13 2 2) (inst 4 2 (withStreams [(0x13, [0x10, 0x20, 0x30])])))
    (fun s => (bytes s, s.result)) = some ([0x12, 0x00, 0x30, 0x00], .raised (.sourceUnderrun 0x13 3)) := by decide

/-- T74, for `GLYPH_FMT = 4`. -/
theorem test_char (h : Config.glyphFmt = .four) :
    after (exec (.char 0 0 0x43 0x30) (inst 8 4 (withStreams []))) (fun s => (s.result, (bytes s).take 8)) =
    some (.okAdvance 3, [0x12, 0x30, 0x00, 0x00, 0x45, 0x60, 0x00, 0x00]) := by
  have k : glyphColor = color4 := by unfold glyphColor; rw [h]
  simp only [exec, execChar, drawChar, k]
  decide

/-- T75. -/
theorem test_char_invalid :
    after (exec (.char 0 0 0x44 0x30) (inst 8 4 (withStreams []))) (fun s => (s.result, bytes s)) =
    some (.okAdvance 0, List.replicate 16 0) := by decide

/-- T73, for `GLYPH_FMT = 4`. -/
theorem test_str_edge (h : Config.glyphFmt = .four) :
    after (exec (.str 6 0 0x21 0x30) (inst 8 4 (withStreams [(0x21, [0x41])]))) (fun s => (s.fault, (bytes s).take 4)) =
    some (some (.coordOutOfRange 8 0), [0x00, 0x00, 0x00, 0x11]) := by
  have k : glyphColor = color4 := by unfold glyphColor; rw [h]
  show after (finish ((drawString 0 0x30 [0x41] 6 (inst 8 4 (withStreams [(0x21, [0x41])]))).answer fun _ => .ok)) _ = _
  simp only [drawString, drawChar, k]
  decide

/-- A newline stops the string before anything is drawn (R200). -/
theorem test_str_newline :
    after (exec (.str 0 0 0x21 0x30) (inst 8 4 (withStreams [(0x21, [0x5A, 0x0A, 0x41])]))) (fun s => (s.result, bytes s)) =
    some (.ok, List.replicate 16 0) := by decide

/-- T80 to T86. -/
theorem test_modenorm : after (exec .modenorm (inst 4 2 Env.reset)) (·.trace) = some [.tx false [0xA6]] := by decide
theorem test_modeinv : after (exec .modeinv (inst 4 2 Env.reset)) (·.trace) = some [.tx false [0xA7]] := by decide
theorem test_modeon : after (exec .modeon (inst 4 2 Env.reset)) (·.trace) = some [.tx false [0xA5]] := by decide
theorem test_modeoff : after (exec .modeoff (inst 4 2 Env.reset)) (·.trace) = some [.tx false [0xA4]] := by decide
theorem test_sleep : after (exec .sleep (inst 4 2 Env.reset)) (·.trace) = some [.tx false [0xAE]] := by decide
theorem test_wake : after (exec .wake (inst 4 2 Env.reset)) (·.trace) = some [.tx false [0xAF]] := by decide
theorem test_graydef : after (exec .graydef (inst 4 2 Env.reset)) (·.trace) = some [.tx false [0xB9]] := by decide

/-- T88. -/
theorem test_graytab_underrun :
    after (exec (.graytab 0x12) (inst 4 2 (withStreams [(0x12, [0, 1, 2])]))) (fun s => (s.result, s.trace)) =
    some (.raised (.sourceUnderrun 0x12 3), []) := by decide

/-- T87. -/
theorem test_graytab :
    after (exec (.graytab 0x12) (inst 4 2 (withStreams [(0x12, [0, 1, 2, 3, 4, 5, 6, 7, 8, 9, 10, 11, 12, 13, 14, 15])])))
      (·.trace) =
    some [.tx false [0xB8], .tx true [0, 1, 2, 3, 4, 5, 6, 7, 8, 9, 10, 11, 12, 13, 14, 15]] := by decide

/-- T89. -/
theorem test_setcon : after (exec (.setcon 0xFF) (inst 4 2 Env.reset)) (·.trace) =
    some [.tx false [0xC1], .tx true [0xFF]] := by decide

/-- T90. -/
theorem test_setbri : after (exec (.setbri 0x1F) (inst 4 2 Env.reset)) (·.trace) =
    some [.tx false [0xC7], .tx true [0x0F]] := by decide

/-! ### Steps of the controller (10_state.md R33, R34, 20_memory.md R76, R77) -/

theorem test_cmdUnlock : after (exec (.cmdUnlock 0x12) (ctrlState true)) (·.ctrl.regs.unlock) = some 0x12 := by decide
theorem test_cmdSleepOn : after (exec .cmdSleepOn (ctrlState false)) (·.ctrl.regs.asleep) = some true := by decide
theorem test_cmdClock : after (exec (.cmdClock 0x91) (ctrlState true)) (·.ctrl.regs.clock) = some 0x91 := by decide
theorem test_cmdFuncsel : after (exec (.cmdFuncsel 1) (ctrlState true)) (·.ctrl.regs.funcsel) = some 1 := by decide
theorem test_cmdPrechargeV : after (exec (.cmdPrechargeV 0x1F) (ctrlState true)) (·.ctrl.regs.prechargeV) = some 0x1F := by
  decide
theorem test_cmdPrecharge2 : after (exec (.cmdPrecharge2 8) (ctrlState true)) (·.ctrl.regs.precharge2) = some 8 := by decide
theorem test_cmdVcomh : after (exec (.cmdVcomh 7) (ctrlState true)) (·.ctrl.regs.vcomh) = some 7 := by decide
theorem test_cmdEnh1 : after (exec (.cmdEnh1 [1, 2]) (ctrlState true)) (·.ctrl.regs.enh1) = some [1, 2] := by decide
theorem test_cmdEnh2 : after (exec (.cmdEnh2 [3, 4]) (ctrlState true)) (·.ctrl.regs.enh2) = some [3, 4] := by decide
theorem test_cmdMux : after (exec (.cmdMux 63) (ctrlState true)) (·.ctrl.regs.mux) = some 63 := by decide
theorem test_cmdExitPartial : after (exec .cmdExitPartial (ctrlState true)) (·.ctrl.regs.partialMode) = some false := by decide
theorem test_cmdSetCol : after (exec (.cmdSetCol 28 155) (ctrlState false)) (·.ctrl.window) = some ⟨28, 155, 0, 0⟩ := by decide
theorem test_cmdSetRow : after (exec (.cmdSetRow 3 63) (ctrlState false)) (·.ctrl.window) = some ⟨0, 0, 3, 63⟩ := by decide
theorem test_cmdOffset : after (exec (.cmdOffset 5) (ctrlState true)) (·.ctrl.regs.offset) = some 5 := by decide
theorem test_cmdStartline : after (exec (.cmdStartline 6) (ctrlState true)) (·.ctrl.regs.startline) = some 6 := by decide
theorem test_cmdRemap : after (exec (.cmdRemap [5, 6]) (ctrlState true)) (·.ctrl.regs.remap) = some [5, 6] := by decide
theorem test_cmdSleepOff : after (exec .cmdSleepOff (ctrlState true)) (·.ctrl.regs.asleep) = some false := by decide
/-- A sleep forgets nothing that was configured in it (70_reset_and_hazards.md R263, R273). -/
theorem test_configured_in_sleep : after (Host.Core.run core 3 { State.reset with
      wire := [.command 0xAE [], .command 0xB3 [0x91], .command 0xAF []] }) (·.ctrl.regs.clock) = some 0x91 := by decide
theorem test_cmdGrayDefault : after (exec .cmdGrayDefault (ctrlState false)) (·.ctrl.regs.gray) = some .default := by decide
theorem test_cmdContrast : after (exec (.cmdContrast 0x80) (ctrlState false)) (·.ctrl.regs.contrast) = some 0x80 := by decide
theorem test_cmdBrightness : after (exec (.cmdBrightness 15) (ctrlState false)) (·.ctrl.regs.brightness) = some 15 := by decide
theorem test_cmdNormal : after (exec .cmdNormal (ctrlState false)) (·.ctrl.regs.mode) = some .normal := by decide
theorem test_cmdInvert : after (exec .cmdInvert (ctrlState false)) (·.ctrl.regs.mode) = some .inverted := by decide
theorem test_cmdAllOn : after (exec .cmdAllOn (ctrlState false)) (·.ctrl.regs.mode) = some .allOn := by decide
theorem test_cmdAllOff : after (exec .cmdAllOff (ctrlState false)) (·.ctrl.regs.mode) = some .allOff := by decide
theorem test_cmdGrayTable : after (exec (.cmdGrayTable (List.replicate 16 9)) (ctrlState false)) (·.ctrl.regs.gray) =
    some (.table (List.replicate 16 9)) := by decide

/-- The end of P2: a fresh 2 by 2 window at column 28 takes `99 99 / 45 6F` row by row (R77). -/
theorem test_cmdWriteRam :
    after (exec (.cmdWriteRam [0x99, 0x99, 0x45, 0x6F])
      { State.reset with ctrl := { Ctrl.reset with window := ⟨28, 29, 0, 1⟩, pointer := .atStart } }) (·.ctrl.gram) =
    some [(28, 0x99), (29, 0x99), (284, 0x45), (285, 0x6F)] := by decide

/-- The same window set by operands that wrapped: nothing is known (U6). -/
theorem test_cmdWriteRam_wrapped :
    after (exec (.cmdWriteRam [0x99, 0x99, 0x45, 0x6F])
      { State.reset with
        ctrl := { Ctrl.reset with window := ⟨28, 29, 0, 1⟩, columnsBarred := true, pointer := .atStart, gram := [(27, 7)] } })
      (·.ctrl.gram) = some [] := by decide

/-- Without a fresh window no byte of the window is known, and a byte outside it is as it was (U7). -/
theorem test_cmdWriteRam_stale :
    after (exec (.cmdWriteRam [0x99])
      { State.reset with ctrl := { Ctrl.reset with window := ⟨28, 29, 0, 1⟩, gram := [(27, 7), (28, 8), (285, 9)] } })
      (·.ctrl.gram) = some [(27, 7)] := by decide

/-! ### The step -/

/-- P4 (a): SETPIX as the first request after reset. -/
theorem test_step_request :
    after (step (State.reset.withFetchWord 88 0x0000000000010000000020)) (fun s => (s.fault, s.trace, s.port)) =
    some (some (.lifecycleViolation .setpix), [], []) := by decide

/-- T101. -/
theorem test_step_illegal :
    after (step (State.reset.withFetchWord 88 0x000000000000000000007F)) (fun s => (s.fault, s.life)) =
    some (some (.illegalRequest 0x7F), .unconstructed) := by decide

theorem test_step_command : after (step (State.reset.withFetchWord 8 0xA7)) (·.ctrl.regs.mode) = some .inverted := by decide

/-! ### Witnesses: for every statement with hypotheses, a state and operands that meet them -/

/-- A 4 by 2 instance in which everything answers `Ok`. -/
def ready : State := inst 4 2 Env.reset

/-- The same with a bitmap of 3 bytes at 0x10, a string `AZ` at 0x20, `A` at 0x21, 16 entries at 0x12 and the font at 0x30;
room for two glyphs side by side. -/
def drawing : State :=
  inst 8 4 (withStreams [(0x10, [0x12, 0x34, 0x56]), (0x11, [0x12, 0x34, 0x56, 0x78, 0x9A, 0xBC]), (0x20, [0x41, 0x5A, 0x42]),
    (0x12, [0, 1, 2, 3, 4, 5, 6, 7, 8, 9, 10, 11, 12, 13, 14, 15]), (0x13, [0, 1, 2, 3, 4, 5, 6, 7, 8, 9, 10, 11, 12, 13, 14])])

/-- `drawing` with a transport that answers twice and then never. -/
def twoAnswers : State := { drawing with env := { drawing.env with transmit := [.ok, .ok, .never] } }

/-- A 4 by 2 instance whose transport falls silent after `k` phases. -/
def silent (k : Nat) : State := inst 4 2 (answering (List.replicate k .ok ++ [.never]))

theorem ready_ready : Ready ready := by decide
theorem drawing_ready : Ready drawing := by decide

/-- The memories of the state after reset have their canonical form. -/
theorem test_reset_memories : fbWf State.reset = true ∧ gramWf State.reset = true := by decide

/-- DecodeOfEncode, each check of the well-formedness and a request. -/
theorem witness_decodeOfEncode : (Instr.fill 0xFF).wellFormed = true ∧ (Instr.cmdEnh1 [1, 2]).wellFormed = true ∧
    (Instr.cmdEnh2 [1, 2]).wellFormed = true ∧ (Instr.cmdRemap [1, 2]).wellFormed = true ∧
    (Instr.cmdGrayTable (List.replicate 16 1)).wellFormed = true ∧ (Instr.cmdWriteRam [0]).wellFormed = true := by decide

theorem witness_encodeOfDecode : decode (.command 0x15 [1, 2]) = .ok (.cmdSetCol 1 2) ∧
    decode (.request 0xFFFFFFFFFFFFFFFFFFFF22) = .ok (.fill 0xFF) := by decide

theorem witness_unassignedOpcodeRaises : (State.reset.withFetchWord 88 0x7F).wire = [] ∧
    (State.reset.withFetchWord 88 0x7F).port = [0x7F] ∧ ∀ o : Op, Config.opcode o ≠ fieldOp 0x7F :=
  ⟨rfl, rfl, fun o => by cases o <;> decide⟩

theorem witness_stepRunsDecoded :
    ({ ready with wire := [.command 0xA6 []] }.wire = .command 0xA6 [] :: [] ∧ decode (.command 0xA6 []) = .ok .cmdNormal) ∧
    ({ ready with port := [0x23] }.wire = [] ∧ { ready with port := [0x23] }.port = 0x23 :: [] ∧
      decode (.request 0x23) = .ok .flush) ∧ ready.wire = [] ∧ ready.port = [] := by decide

theorem witness_placedFormRuns : (Instr.flush).wellFormed = true ∧ requestOp .flush ≠ none ∧
    (Instr.cmdNormal).wellFormed = true ∧ requestOp .cmdNormal = none := by decide

theorem witness_stepKeepsCoherent : Coherent { ready with port := [0x0000000000000000000722] } ∧
    after (step { ready with port := [0x0000000000000000000722] }) bytes = some [0x77, 0x77, 0x77, 0x77] := by decide

theorem witness_faultRecordStays : { ready with fault := some (.illegalRequest 0x7F), port := [0x23] }.fault =
      some (.illegalRequest 0x7F) ∧
    (after (step { ready with fault := some (.illegalRequest 0x7F), port := [0x23] }) (·.result)) = some .ok := by decide

theorem witness_traceOnlyGrows : after (step { ready with port := [0x23] }) (·.trace.length) = some 6 := by decide

theorem witness_lifecycleMoves :
    after (exec (.init 1 2 4 2) State.reset) (fun t => decide (State.reset.life ≠ t.life)) = some true ∧
    after (exec .deinit ready) (fun t => decide (ready.life ≠ t.life)) = some true := by decide

theorem witness_geometryIsInitsAlone : (∃ t, exec .hwreset ready = .next t) ∧ (∃ t, exec .flush ready = .next t) ∧
    (∀ tr p x y, Instr.flush ≠ .init tr p x y) ∧ Instr.flush ≠ .deinit :=
  ⟨⟨_, rfl⟩, ⟨_, rfl⟩, by simp, by decide⟩

theorem witness_requestsLeaveController : requestOp .flush ≠ none ∧ ∃ t, exec .flush ready = .next t :=
  ⟨by decide, _, rfl⟩

theorem witness_commandsLeaveBlock : requestOp .cmdNormal = none ∧ ∃ t, exec .cmdNormal ready = .next t :=
  ⟨by decide, _, rfl⟩

theorem witness_lifecycleViolations : requestOp .flush = some .flush ∧ Op.flush ≠ .init ∧
    State.reset.life ≠ .constructed ∧ { ready with life := .tornDown }.life ≠ .constructed ∧
    ready.life = .constructed := by decide

/-- GeometryRefusals, one side of each bound, and a request that raises it. -/
theorem witness_geometryRefusals : State.reset.life ≠ .constructed ∧ (0 : Coord).toNat = 0 ∧ 256 < (257 : Coord).toNat ∧
    128 < (129 : Coord).toNat ∧ requestOp (.init 1 2 257 64) ≠ none ∧
    after (exec (.init 1 2 257 64) State.reset) (·.result) = some (.raised (.geometryRefused 257 64)) := by decide

theorem mayInit_corners : MayInit State.reset 1 1 ∧ MayInit State.reset 256 128 ∧
    MayInit { ready with life := .tornDown } 1 128 := by decide

theorem witness_acquisitionFailures : MayInit { State.reset with env := { Env.reset with allocate := [.fail] } } 256 128 ∧
    { State.reset with env := { Env.reset with allocate := [.fail] } }.env.allocate.headD .ok = .fail ∧
    MayInit { State.reset with env := { Env.reset with attach := [.fail] } } 1 1 ∧
    allocateOk { State.reset with env := { Env.reset with attach := [.fail] } } ∧
    { State.reset with env := { Env.reset with attach := [.fail] } }.env.attach.headD .ok = .fail := by
  decide

/-- SingleSendsComplete, on one state whose transport has no answer to spare: with no payload, with payloads at their
shortest stream, and with the last operand that does not wrap and the first that does. -/
theorem witness_singleSendsComplete : twoAnswers.life = .constructed ∧
    (sends .modenorm twoAnswers = some (0xA6, []) ∧ transportOk (sentEvents 0xA6 []).length twoAnswers = true) ∧
    (sends (.send 0x5C 0x10 3) twoAnswers = some (0x5C, [0x12, 0x34, 0x56]) ∧
      transportOk (sentEvents 0x5C [0x12, 0x34, 0x56]).length twoAnswers = true) ∧
    sends (.send 0x5C 0x10 0) twoAnswers = some (0x5C, []) ∧
    sends (.graytab 0x12) twoAnswers = some (0xB8, [0, 1, 2, 3, 4, 5, 6, 7, 8, 9, 10, 11, 12, 13, 14, 15]) ∧
    (sends (.colwin 127 128) twoAnswers = some (0x15, [155, 28]) ∧ wireMarks (.colwin 127 128) = [.wrappedColumns] ∧
      transportOk (sentEvents 0x15 [155, 28]).length twoAnswers = true) ∧
    sends (.rowwin 127 127) twoAnswers = some (0x75, [127, 127]) ∧ wireMarks (.rowwin 127 127) = [] := by decide

theorem witness_singleSendsFail : (inst 4 2 (answering [.fail])).life = .constructed ∧
    sends .wake (inst 4 2 (answering [.fail])) = some (0xAF, []) ∧ (inst 4 2 (answering [.fail])).env.transmit = .fail :: [] ∧
    sends (.setcon 9) (inst 4 2 (answering [.ok, .fail])) = some (0xC1, [9]) ∧ ([9] : List Byte) ≠ [] ∧
    (inst 4 2 (answering [.ok, .fail])).env.transmit = .ok :: .fail :: [] := by decide

/-- SilentTransportStops: either phase of a one-command request, the first and the last phase of FLUSH and of INIT, DEINIT. -/
theorem witness_silentTransportStops :
    ((silent 0).life = .constructed ∧ sends .wake (silent 0) = some (0xAF, []) ∧
      (silent 0).env.transmit = .never :: []) ∧
    (sends (.setcon 9) (silent 1) = some (0xC1, [9]) ∧ ([9] : List Byte) ≠ [] ∧
      (silent 1).env.transmit = .ok :: .never :: []) ∧
    (Ready (silent 0) ∧ (silent 0).env.transmit = List.replicate 0 .ok ++ .never :: []) ∧
    (Ready (silent 5) ∧ (silent 5).env.transmit = List.replicate 5 .ok ++ .never :: []) ∧
    (MayInit { silent 0 with life := .tornDown } 256 128 ∧ allocateOk (silent 0) ∧ attachOk (silent 0)) ∧
    MayInit { silent 42 with life := .tornDown } 1 1 ∧ allocateOk (silent 42) ∧ attachOk (silent 42) ∧
      (silent 42).env.transmit = List.replicate 42 .ok ++ .never :: [] := by
  refine ⟨?_, ?_, ?_, ?_, ?_, ?_⟩ <;> decide

theorem witness_shortPayloadsRaise : drawing.life = .constructed ∧ (streamOf drawing.env 0x10).length < (4 : Coord).toNat ∧
    (streamOf drawing.env 0x13).length < 16 := by decide

/-- FramebufferMap, on an even and an odd width, at the last pixel and the last byte. -/
theorem witness_framebufferMap : GeometryCoherent ready ∧ GeometryCoherent (inst 5 2 Env.reset) ∧
    3 < ready.resX.toNat ∧ 1 < ready.resY.toNat ∧ 5 < (inst 5 2 Env.reset).bsz.toNat ∧
    (inst 5 2 Env.reset).resX.toNat ≤ 2 * (5 % (inst 5 2 Env.reset).pw.toNat) + 1 ∧
    pixelIndex ready.pw.toNat 3 1 = pixelIndex ready.pw.toNat 3 1 := by decide

theorem witness_setpixWritesOneNibble : Ready (inst 5 2 Env.reset) ∧ (4 : Coord).toNat < (inst 5 2 Env.reset).resX.toNat ∧
    (1 : Coord).toNat < (inst 5 2 Env.reset).resY.toNat ∧ readFb (inst 5 2 Env.reset) (pixelIndex 3 4 1) = some 0 := by decide

theorem witness_getpixReadsOneNibble : Ready ready ∧ (3 : Coord).toNat < ready.resX.toNat ∧
    (1 : Coord).toNat < ready.resY.toNat := by decide

/-- PixelsOutOfRangeRaise, at the first coordinate out of range in each direction. -/
theorem witness_pixelsOutOfRangeRaise : ready.life = .constructed ∧ ready.resX.toNat ≤ (4 : Coord).toNat ∧
    ready.resY.toNat ≤ (2 : Coord).toNat := by decide

theorem witness_fillSetsEveryByte : Ready ready ∧ Ready (inst 1 1 Env.reset) := by decide

theorem witness_flushSendsTheBuffer : Ready ready ∧ transportOk 6 ready = true := by decide

/-- FlushEndsAtFailure, at the first and at the last phase. -/
theorem witness_flushEndsAtFailure :
    (Ready (inst 4 2 (answering [.fail])) ∧
      (sendsPhases (flushSends (inst 4 2 (answering [.fail]))))[0]? = some (0, .command, 0x15) ∧
      (inst 4 2 (answering [.fail])).env.transmit = List.replicate 0 .ok ++ .fail :: []) ∧
    Ready (inst 4 2 (answering [.ok, .ok, .ok, .ok, .ok, .fail])) ∧
      (sendsPhases (flushSends (inst 4 2 (answering [.ok, .ok, .ok, .ok, .ok, .fail]))))[5]? = some (2, .payload, 0x5C) ∧
      (inst 4 2 (answering [.ok, .ok, .ok, .ok, .ok, .fail])).env.transmit = List.replicate 5 .ok ++ .fail :: [] :=
  ⟨⟨by decide, by decide, by decide⟩, by decide, by decide, by decide⟩

theorem witness_flushReachesController : Ready ready ∧ transportOk 6 ready = true ∧ ready.wire = [] ∧
    ready.ctrl.regs.asleep = false := by decide

/-- An instance whose first phase fails, the next six are answered `Ok`, and then none. -/
def failsOnce : State := inst 4 2 (answering [.fail, .ok, .ok, .ok, .ok, .ok, .ok, .never])

/-- An instance whose sixth phase fails. -/
def failsLast : State := inst 4 2 (answering [.ok, .ok, .ok, .ok, .ok, .fail])

/-- FlushRepairsTheController, after the first and after the last phase, with the answers of the second FLUSH scripted and with
none scripted. -/
theorem witness_flushRepairsTheController :
    (Ready failsOnce ∧ failsOnce.wire = [] ∧ failsOnce.ctrl.regs.asleep = false ∧
      (sendsPhases (flushSends failsOnce))[0]? = some (0, .command, 0x15) ∧
      failsOnce.env.transmit = List.replicate 0 .ok ++ .fail :: [.ok, .ok, .ok, .ok, .ok, .ok, .never] ∧
      ∀ a ∈ [PhaseAnswer.ok, .ok, .ok, .ok, .ok, .ok, .never].take 6, a = .ok) ∧
    Ready failsLast ∧ failsLast.wire = [] ∧ failsLast.ctrl.regs.asleep = false ∧
      (sendsPhases (flushSends failsLast))[5]? = some (2, .payload, 0x5C) ∧
      failsLast.env.transmit = List.replicate 5 .ok ++ .fail :: [] ∧ ∀ a ∈ ([] : List PhaseAnswer).take 6, a = .ok :=
  ⟨⟨by decide, by decide, by decide, by decide, by decide, by decide⟩, by decide, by decide, by decide, by decide,
    by decide, by decide⟩

/-- HlineDrawsItsPixels and VlineDrawsItsPixels, with the stop at the edge. -/
theorem witness_hlineDrawsItsPixels : Ready ready ∧ (4 : Coord).toNat ≤ ready.resX.toNat ∧
    (1 : Coord).toNat < ready.resY.toNat := by decide
theorem witness_vlineDrawsItsPixels : Ready ready ∧ (3 : Coord).toNat < ready.resX.toNat ∧
    (2 : Coord).toNat ≤ ready.resY.toNat := by decide

theorem witness_emptyLinesDoNothing : ready.life = .constructed ∧ (5 : Coord).toNat ≤ (5 : Coord).toNat := by decide

/-- LinesStopAtTheEdge: the stop one past the edge, and the row or column the first out of range. -/
theorem witness_linesStopAtTheEdge : Ready ready ∧ (1 : Coord).toNat < (5 : Coord).toNat ∧
    ready.resX.toNat < (5 : Coord).toNat ∧ ready.resY.toNat ≤ (2 : Coord).toNat ∧ (1 : Coord).toNat < (3 : Coord).toNat ∧
    ready.resY.toNat < (3 : Coord).toNat ∧ ready.resX.toNat ≤ (4 : Coord).toNat := by decide

theorem witness_bmp4DrawsTheStream : Ready drawing ∧ (5 : Coord).toNat + (3 : Coord).toNat ≤ drawing.resX.toNat ∧
    (2 : Coord).toNat + (2 : Coord).toNat ≤ drawing.resY.toNat ∧ (3 * 2 + 1) / 2 ≤ (streamOf drawing.env 0x10).length := by
  decide
theorem witness_bmp8DrawsTheStream : Ready drawing ∧ (5 : Coord).toNat + (3 : Coord).toNat ≤ drawing.resX.toNat ∧
    (2 : Coord).toNat + (2 : Coord).toNat ≤ drawing.resY.toNat ∧ 3 * 2 ≤ (streamOf drawing.env 0x11).length := by decide

theorem witness_emptyBitmapsDoNothing : drawing.life = .constructed ∧ (0 : Coord).toNat = 0 := by decide

/-- BitmapsStopAtTheFirstBadPixel for BMP4: of a 3 by 3 bitmap at (0, 0) pixel 6 has no source byte; of a 3 by 2 bitmap at
(6, 0) pixel 2 is out of range. -/
theorem witness_bitmapsStop_bmp4 : Ready drawing ∧
    StopsAt drawing 0 0 0x10 (3 : Coord).toNat (3 : Coord).toNat (· / 2) 6 (.sourceUnderrun 0x10 3) ∧
    StopsAt drawing (6 : Coord).toNat 0 0x10 (3 : Coord).toNat (2 : Coord).toNat (· / 2) 2 (.coordOutOfRange 8 0) := by
  unfold StopsAt
  decide

/-- The same for BMP8: pixel 3 has no source byte, pixel 2 is out of range. -/
theorem witness_bitmapsStop_bmp8 : Ready drawing ∧
    StopsAt drawing 0 0 0x10 (3 : Coord).toNat (3 : Coord).toNat (fun k => k) 3 (.sourceUnderrun 0x10 3) ∧
    StopsAt drawing (6 : Coord).toNat 0 0x10 (3 : Coord).toNat (2 : Coord).toNat (fun k => k) 2 (.coordOutOfRange 8 0) := by
  unfold StopsAt
  decide

/-- A font of one glyph of one pixel, whose bitmap serves both glyph formats. -/
def lettering : State :=
  { inst 8 4 Env.reset with
    env := { Env.reset with
      streams := [(0x41, [0x50]), (0x21, [0x41, 0x40, 0x41, 0x0A, 0x41])]
      fonts := [(0x30, ⟨0x41, 0x41, [(0x41, ⟨1, 1, 0x41⟩)]⟩)] } }

/-- A font of a one-pixel glyph and of one of two pixels side by side; and the same with an empty bitmap behind the second. Both
glyph formats take the bytes. -/
def twoGlyphs (second : List Byte) : State :=
  { inst 8 4 Env.reset with
    env := { Env.reset with
      streams := [(0x41, [0x50]), (0x42, second), (0x21, [0x41, 0x42, 0x41])]
      fonts := [(0x30, ⟨0x41, 0x42, [(0x41, ⟨1, 1, 0x41⟩), (0x42, ⟨2, 1, 0x42⟩)]⟩)] } }

/-- The second glyph leaves the display at its second pixel when it starts in the last column. -/
theorem twoGlyphs_edge : StopsAt (twoGlyphs [0x12, 0x30]) 7 3 0x42 2 1 glyphByte 1 (.coordOutOfRange 8 3) := by
  unfold StopsAt glyphByte
  cases Config.glyphFmt <;> decide

/-- With an empty bitmap it ends at its first pixel, in range or not. -/
theorem twoGlyphs_short : StopsAt (twoGlyphs []) 7 3 0x42 2 1 glyphByte 0 (.sourceUnderrun 0x42 0) := by
  unfold StopsAt glyphByte
  cases Config.glyphFmt <;> decide

/-- BitmapsStopAtTheFirstBadPixel for CHAR: a glyph that leaves the display, and one with a short bitmap. -/
theorem witness_bitmapsStop_char : Ready (twoGlyphs [0x12, 0x30]) ∧ Ready (twoGlyphs []) ∧
    validCode (fontOf (twoGlyphs []).env 0x30) 0x42 = true ∧ glyphOf (fontOf (twoGlyphs []).env 0x30) 0x42 = ⟨2, 1, 0x42⟩ ∧
    StopsAt (twoGlyphs [0x12, 0x30]) (7 : Coord).toNat (3 : Coord).toNat 0x42 2 1 glyphByte 1 (.coordOutOfRange 8 3) ∧
    StopsAt (twoGlyphs []) (7 : Coord).toNat (3 : Coord).toNat 0x42 2 1 glyphByte 0 (.sourceUnderrun 0x42 0) :=
  ⟨by decide, by decide, by decide, by decide, twoGlyphs_edge, twoGlyphs_short⟩

theorem glyphBytes_one : glyphBytes 1 = 1 := by
  unfold glyphBytes
  cases Config.glyphFmt <;> rfl

/-- CharDrawsItsGlyph, in the last column and row. -/
theorem witness_charDrawsItsGlyph : Ready lettering ∧ validCode (fontOf lettering.env 0x30) 0x41 = true ∧
    glyphOf (fontOf lettering.env 0x30) 0x41 = ⟨1, 1, 0x41⟩ ∧
    glyphFits lettering (7 : Coord).toNat (3 : Coord).toNat ⟨1, 1, 0x41⟩ := by
  refine ⟨by decide, by decide, by decide, by decide, ?_⟩
  show glyphBytes 1 ≤ 1
  rw [glyphBytes_one]

/-- InvalidCharIsANoOp, the codes next to the font's range. -/
theorem witness_invalidCharIsANoOp : lettering.life = .constructed ∧ (0x40 : Byte) < (fontOf lettering.env 0x30).first ∧
    (fontOf lettering.env 0x30).last < (0x42 : Byte) := by decide

/-- StrDrawsItsPlan: two glyphs, an unknown code between them, stopped by the newline. -/
theorem witness_strDrawsItsPlan : Ready lettering ∧
    ([(6, 0x41), (7, 0x41)] : List (Nat × Byte)) =
      stringPlan lettering.resX.toNat (fontOf lettering.env 0x30) (streamOf lettering.env 0x21) (6 : Coord).toNat ∧
    ∀ p ∈ ([(6, 0x41), (7, 0x41)] : List (Nat × Byte)),
      glyphFits lettering p.1 (3 : Coord).toNat (glyphOf (fontOf lettering.env 0x30) p.2) := by
  refine ⟨by decide, by decide, fun p hp => ?_⟩
  have hb : glyphBytes 1 ≤ 1 := by rw [glyphBytes_one]
  simp only [List.mem_cons, List.not_mem_nil, or_false] at hp
  rcases hp with rfl | rfl
  · exact ⟨by decide, hb⟩
  · exact ⟨by decide, hb⟩

/-- The plan of `twoGlyphs` from column 6 draws its first glyph there, which fits. -/
theorem twoGlyphs_plan (second : List Byte) :
    stringPlan (twoGlyphs second).resX.toNat (fontOf (twoGlyphs second).env 0x30) (streamOf (twoGlyphs second).env 0x21)
      (6 : Coord).toNat = [(6, 0x41)] ++ (7, 0x42) :: [] ∧
    ∀ p ∈ ([(6, 0x41)] : List (Nat × Byte)),
      glyphFits (twoGlyphs second) p.1 (3 : Coord).toNat (glyphOf (fontOf (twoGlyphs second).env 0x30) p.2) := by
  refine ⟨rfl, fun p hp => ?_⟩
  rw [List.mem_singleton] at hp
  subst hp
  refine ⟨.inr ?_, ?_⟩
  · show 6 + 1 ≤ 8 ∧ 3 + 1 ≤ 4
    decide
  · show glyphBytes 1 ≤ 1
    rw [glyphBytes_one]

/-- StrDrawsItsPlan, the clause of the failing glyph: the second glyph leaves the display at column 8, or has no bitmap. -/
theorem witness_strStopsAtTheBadGlyph :
    (Ready (twoGlyphs [0x12, 0x30]) ∧
      stringPlan (twoGlyphs [0x12, 0x30]).resX.toNat (fontOf (twoGlyphs [0x12, 0x30]).env 0x30)
        (streamOf (twoGlyphs [0x12, 0x30]).env 0x21) (6 : Coord).toNat = [(6, 0x41)] ++ (7, 0x42) :: [] ∧
      (∀ p ∈ ([(6, 0x41)] : List (Nat × Byte)), glyphFits (twoGlyphs [0x12, 0x30]) p.1 (3 : Coord).toNat
        (glyphOf (fontOf (twoGlyphs [0x12, 0x30]).env 0x30) p.2)) ∧
      glyphOf (fontOf (twoGlyphs [0x12, 0x30]).env 0x30) 0x42 = ⟨2, 1, 0x42⟩ ∧
      StopsAt (twoGlyphs [0x12, 0x30]) 7 (3 : Coord).toNat 0x42 2 1 glyphByte 1 (.coordOutOfRange 8 3)) ∧
    Ready (twoGlyphs []) ∧ glyphOf (fontOf (twoGlyphs []).env 0x30) 0x42 = ⟨2, 1, 0x42⟩ ∧
      StopsAt (twoGlyphs []) 7 (3 : Coord).toNat 0x42 2 1 glyphByte 0 (.sourceUnderrun 0x42 0) :=
  ⟨⟨by decide, (twoGlyphs_plan _).1, (twoGlyphs_plan _).2, rfl, twoGlyphs_edge⟩, by decide, rfl, twoGlyphs_short⟩

/-- InitConstructs and InitConfiguresController: both corners of the geometry range, from both lifecycle states. -/
theorem witness_initConstructs : MayInit State.reset 1 1 ∧ MayInit State.reset 256 128 ∧ allocateOk State.reset ∧
    attachOk State.reset ∧ transportOk 43 State.reset = true ∧ State.reset.wire = [] :=
  ⟨mayInit_corners.1, mayInit_corners.2.1, rfl, rfl, rfl, rfl⟩

/-- The state after reset with a transport that fails after `k` phases. -/
def failing (k : Nat) : State := { State.reset with env := answering (List.replicate k .ok ++ [.fail]) }

/-- InitFailsAtomically, at the first and at the last phase of the program. -/
theorem witness_initFailsAtomically :
    (MayInit (failing 0) 4 2 ∧ allocateOk (failing 0) ∧ attachOk (failing 0) ∧
      (sendsPhases (initSends 4 2))[0]? = some (0, .command, 0xFD) ∧
      (failing 0).env.transmit = List.replicate 0 .ok ++ .fail :: []) ∧
    MayInit (failing 42) 4 2 ∧ allocateOk (failing 42) ∧ attachOk (failing 42) ∧
      (sendsPhases (initSends 4 2))[42]? = some (23, .command, 0xA6) ∧
      (failing 42).env.transmit = List.replicate 42 .ok ++ .fail :: [] := by
  refine ⟨⟨?_, rfl, rfl, rfl, rfl⟩, ?_, rfl, rfl, rfl, rfl⟩ <;> decide

theorem witness_hwresetPulses : ready.life = .constructed := by decide

theorem witness_deinitTearsDown : ready.life = .constructed ∧ transportOk 1 ready = true ∧
    (inst 4 2 (answering [.fail])).life = .constructed ∧ (inst 4 2 (answering [.fail])).env.transmit = .fail :: [] := by decide

/-- ConfigurationCommandsWrite and DisplayCommandsAsleep. -/
theorem witness_asleep : (ctrlState true).ctrl.regs.asleep = true ∧ ([1, 2] : List Byte).length = 2 ∧
    (List.replicate 16 (1 : Byte)).length = 16 := by decide

/-- ConfigurationCommandsAwake and DisplayCommandsWrite. -/
theorem witness_awake : (ctrlState false).ctrl.regs.asleep = false ∧ ([1, 2] : List Byte).length = 2 ∧
    (List.replicate 16 (1 : Byte)).length = 16 := by decide

/-- LockAndSleepCommands, waking from sleep and waking when awake. -/
theorem witness_lockAndSleepCommands : (ctrlState false).ctrl.regs.asleep = false ∧
    (ctrlState true).ctrl.regs.asleep = true := by decide

theorem witness_windowIsTheLastReceived : (∃ t, exec .cmdNormal ready = .next t) ∧ (Instr.cmdNormal).wellFormed = true ∧
    (∀ a b, Instr.cmdNormal ≠ .cmdSetCol a b) ∧ ∀ a b, Instr.cmdNormal ≠ .cmdSetRow a b :=
  ⟨⟨_, rfl⟩, by decide, by simp, by simp⟩

/-- MemoryWriteFillsTheWindow: the last two columns in the last row, and one byte in the first. -/
theorem witness_memoryWriteFillsTheWindow : (ctrlState false).ctrl.regs.asleep = false ∧
    (28 ≤ (154 : Byte).toNat ∧ (154 : Byte) ≤ 155 ∧ (155 : Byte).toNat ≤ 155 ∧ (127 : Byte) ≤ 127 ∧ (127 : Byte).toNat ≤ 127 ∧
      ([1, 2] : List Byte).length =
        ((155 : Byte).toNat + 1 - (154 : Byte).toNat) * ((127 : Byte).toNat + 1 - (127 : Byte).toNat)) ∧
    28 ≤ (28 : Byte).toNat ∧ (28 : Byte) ≤ 28 ∧ (0 : Byte) ≤ 0 ∧
      ([1] : List Byte).length = ((28 : Byte).toNat + 1 - (28 : Byte).toNat) * ((0 : Byte).toNat + 1 - (0 : Byte).toNat) := by
  decide

/-- A controller with the widest window of R77, and with that window set by operands that wrapped. -/
def windowed (wrapped : Bool) : State :=
  { State.reset with ctrl := { Ctrl.reset with window := ⟨28, 155, 0, 127⟩, columnsBarred := wrapped } }

/-- MemoryWriteStaysInTheWindow, with a window of which R77 speaks and with one of which it does not. -/
theorem witness_memoryWriteStaysInTheWindow : ([1] : List Byte) ≠ [] ∧ (windowed false).ctrl.KnownWindow ∧
    ([1] : List Byte).length ≤ (windowed false).ctrl.window.wide * (windowed false).ctrl.window.high ∧
    (windowed false).ctrl.window.covers 27 = false ∧ ¬(windowed true).ctrl.KnownWindow := by decide

/-- LineEventsTouchControllerOnly, each kind of event and each clause. -/
theorem witness_lineEventsTouchControllerOnly :
    { ready with wire := [.resetPulse] }.wire = .resetPulse :: [] ∧
    ({ ready with wire := [.command 0xAE [0]] }.wire = .command 0xAE [0] :: [] ∧
      decode (.command 0xAE [0]) = .error (.payloadLength .sleepOn 1) ∧ (0xAE : Byte) ≠ Config.cmdCode .setCol ∧
      (0xAE : Byte) ≠ Config.cmdCode .setRow) ∧
    (BusEvent.command 0x15 [1] = .command 0x15 [1] ∧ decode (.command 0x15 [1]) = .error (.payloadLength .setCol 1) ∧
      (0x15 : Byte) ≠ Config.cmdCode .setRow) ∧
    { ready with wire := [.brokenPhase 0x75 []] }.wire = .brokenPhase 0x75 [] :: [] ∧
    (0x75 : Byte) = Config.cmdCode .setRow ∧
    (decode (.command 0x5C [1]) = .ok (.cmdWriteRam [1]) ∧ (0x5C : Byte) = Config.cmdCode .writeRam) ∧
    { ready with wire := [.brokenProgram] }.wire = .brokenProgram :: [] ∧
    { ready with wire := [.brokenFlush] }.wire = .brokenFlush :: [] ∧
    { ready with wire := [.wrappedColumns] }.wire = .wrappedColumns :: [] ∧
    { ready with wire := [.wrappedRows] }.wire = .wrappedRows :: [] ∧
    ∀ code p i, BusEvent.wrappedRows = .command code p → decode (.command code p) ≠ .ok i := by
  refine ⟨rfl, by decide, by decide, rfl, by decide, by decide, rfl, rfl, rfl, rfl, ?_⟩
  intro _ _ _ h
  cases h

end Sys2Proof.Tests
end

namespace Sys2Proof.Machine

/-- Exactly the bytes of `FB` below its size are addressable (10_state.md R39). -/
theorem readFb_eq_none_iff (s : State) (i : Nat) : readFb s i = none ↔ fbSize s ≤ i := by
  rw [← Option.not_isSome_iff_eq_none, readFb_isSome_iff, not_lt]

/-- A buffer that does not exist has no bytes. -/
theorem fbSize_of_fb_none {s : State} (h : s.fb = none) : fbSize s = 0 := by
  simp [fbSize, h]

theorem readFb_of_fb_none {s : State} (h : s.fb = none) (i : Nat) : readFb s i = none :=
  (readFb_eq_none_iff s i).mpr (fbSize_of_fb_none h ▸ i.zero_le)

/-- Settles O9: the registers are the fields of the reset state (10_state.md R47), and no byte of `FB` is addressable
because the reset state holds no buffer. -/
theorem resetValues : Obligations.ResetValues := by
  have noBuffer : State.reset.fb = none := rfl
  exact ⟨rfl, rfl, rfl, rfl, rfl, readFb_of_fb_none noBuffer⟩

end Sys2Proof.Machine

/-! ### The framebuffer map (20_memory.md R63)

A packed column `x / 2` of an in-range pixel lies below `PW`, so quotient and remainder by `PW` take an index back to its
row and its packed column; the parity of the column names the half. -/

namespace Sys2Proof.Machine

/-- The row of a pixel is the quotient of its index. -/
theorem pixelIndex_div {pw x : Nat} (y : Nat) (hx : x / 2 < pw) : pixelIndex pw x y / pw = y := by
  rw [pixelIndex, Nat.add_mul_div_right _ _ (Nat.zero_lt_of_lt hx), Nat.div_eq_of_lt hx, Nat.zero_add]

/-- The packed column of a pixel is the remainder of its index. -/
theorem pixelIndex_mod {pw x : Nat} (y : Nat) (hx : x / 2 < pw) : pixelIndex pw x y % pw = x / 2 := by
  rw [pixelIndex, Nat.add_mul_mod_self_right, Nat.mod_eq_of_lt hx]

/-- A pixel of the first `h` rows lies in the first `pw * h` bytes. -/
theorem pixelIndex_lt {pw x y h : Nat} (hx : x / 2 < pw) (hy : y < h) : pixelIndex pw x y < pw * h := by
  rwa [Nat.mul_comm, ← Nat.div_lt_iff_lt_mul (Nat.zero_lt_of_lt hx), pixelIndex_div y hx]

/-- Index and half determine the pixel: two different pixels never share a nibble. -/
theorem pixelIndex_inj {pw x y x' y' : Nat} (hx : x / 2 < pw) (hx' : x' / 2 < pw)
    (hindex : pixelIndex pw x y = pixelIndex pw x' y') (hhalf : x % 2 = x' % 2) : x = x' ∧ y = y' := by
  have hcolumn : x / 2 = x' / 2 := by rw [← pixelIndex_mod y hx, hindex, pixelIndex_mod y' hx']
  have hrow : y = y' := by rw [← pixelIndex_div y hx, hindex, pixelIndex_div y' hx']
  exact ⟨by omega, hrow⟩

/-- The high nibble of byte `i` is the pixel `(2 * (i % pw), i / pw)`. -/
theorem pixelIndex_high_nibble (pw i : Nat) : pixelIndex pw (2 * (i % pw)) (i / pw) = i := by
  rw [pixelIndex, Nat.mul_div_cancel_left _ Nat.two_pos, Nat.mod_add_div']

/-- The low nibble of a byte is the pixel to the right of its high nibble. -/
theorem pixelIndex_low_nibble (pw c y : Nat) : pixelIndex pw (2 * c + 1) y = pixelIndex pw (2 * c) y := by
  rw [pixelIndex, pixelIndex, Nat.mul_add_div Nat.two_pos, Nat.mul_div_cancel_left _ Nat.two_pos, Nat.add_zero]

/-- The packed columns of a row are those whose high nibble is a pixel of the row (10_state.md R21). -/
theorem lt_packedWidth_iff (w : Coord) (c : Nat) : c < packedWidth w ↔ 2 * c < w.toNat := by
  unfold packedWidth
  omega

section Coherent

variable {s : State} (hg : GeometryCoherent s)
include hg

theorem GeometryCoherent.lt_pw_iff (c : Nat) : c < s.pw.toNat ↔ 2 * c < s.resX.toNat := by
  obtain ⟨-, hpw, -⟩ := hg
  rw [hpw, lt_packedWidth_iff]

theorem GeometryCoherent.half_lt_pw {x : Nat} (hx : x < s.resX.toNat) : x / 2 < s.pw.toNat :=
  (hg.lt_pw_iff _).mpr ((Nat.mul_div_le x 2).trans_lt hx)

theorem GeometryCoherent.bsz_eq : s.bsz.toNat = s.pw.toNat * s.resY.toNat := by
  obtain ⟨-, hpw, hbsz, -⟩ := hg
  rw [hbsz, hpw, bufferSize]

/-- The index of an in-range pixel lies in the buffer. -/
theorem GeometryCoherent.pixelIndex_lt_bsz {x y : Nat} (hx : x < s.resX.toNat) (hy : y < s.resY.toNat) :
    pixelIndex s.pw.toNat x y < s.bsz.toNat :=
  hg.bsz_eq ▸ pixelIndex_lt (hg.half_lt_pw hx) hy

/-- The high nibble of a byte of the buffer is an in-range pixel. -/
theorem GeometryCoherent.high_nibble_in_range {i : Nat} (hi : i < s.bsz.toNat) :
    2 * (i % s.pw.toNat) < s.resX.toNat ∧ i / s.pw.toNat < s.resY.toNat := by
  rw [hg.bsz_eq] at hi
  have hpw : 0 < s.pw.toNat := Nat.pos_of_mul_pos_right (Nat.zero_lt_of_lt hi)
  exact ⟨(hg.lt_pw_iff _).mp (Nat.mod_lt i hpw), Nat.div_lt_of_lt_mul hi⟩

/-- A byte whose low nibble lies past the width holds in-range pixels in its high nibble only. -/
theorem GeometryCoherent.even_of_padding {i x y : Nat} (hpad : s.resX.toNat ≤ 2 * (i % s.pw.toNat) + 1)
    (hx : x < s.resX.toNat) (hindex : pixelIndex s.pw.toNat x y = i) : x % 2 = 0 := by
  have hcolumn : i % s.pw.toNat = x / 2 := hindex ▸ pixelIndex_mod y (hg.half_lt_pw hx)
  omega

end Coherent

/-- Settles O27, by quotient and remainder of the index by `PW`. -/
theorem framebufferMap : Obligations.FramebufferMap := by
  intro s hg
  refine ⟨fun x y hx hy => ⟨rfl, hg.pixelIndex_lt_bsz hx hy⟩, ?inverse, ?injective⟩
  case inverse =>
    rintro i y c hi rfl rfl
    obtain ⟨hcolumn, hrow⟩ := hg.high_nibble_in_range hi
    have hhigh := pixelIndex_high_nibble s.pw.toNat i
    have hlow := (pixelIndex_low_nibble s.pw.toNat (i % s.pw.toNat) (i / s.pw.toNat)).trans hhigh
    exact ⟨hcolumn, hrow, hhigh, fun _ => hlow, fun hpad x' y' hx' _ => hg.even_of_padding hpad hx'⟩
  case injective =>
    intro x y x' y' hx _ hx' _
    exact pixelIndex_inj (hg.half_lt_pw hx) (hg.half_lt_pw hx')

end Sys2Proof.Machine

/-! ### The pin-level expansion of a phase (30_encoding.md R85, R87) -/

namespace Sys2Proof.Machine

theorem Event.expand_tx (isData : Bool) (bs : List Byte) :
    Event.expand (.tx isData bs) = [.pin (.dc (dcOf isData)), .pin (.cs .asserted), .bytes bs, .pin (.cs .deasserted)] := rfl

@[simp] theorem dcOf_false : dcOf false = .command := rfl
@[simp] theorem dcOf_true : dcOf true = .data := rfl

/-- Settles O24: every phase expands to the same bracket, and `is_data` only picks the level of `DC`. -/
theorem phaseExpansion : Obligations.PhaseExpansion := by
  intro bs
  constructor
  · rw [Event.expand_tx, dcOf_false]
  · rw [Event.expand_tx, dcOf_true]

end Sys2Proof.Machine

/-! ### The packed pixel byte (30_encoding.md R81 to R84)

A byte is its high nibble followed by its low one. In these terms the masks and shifts of the model put a nibble in its
place, `put` replaces one half and `get` reads one half, so the laws of R82 are those of appending and extracting. -/

namespace Sys2Proof.Machine

/-- The pixel of an even column. -/
def highNibble (b : Byte) : BitVec 4 := b.extractLsb' 4 4

/-- The high and the low nibble make up the byte. -/
theorem highNibble_append_colorNibble (b : Byte) : highNibble b ++ colorNibble b = b :=
  BitVec.extractLsb'_append_extractLsb' (w := 4) (len := 4)

@[simp] theorem highNibble_append (h l : BitVec 4) : highNibble (h ++ l) = h :=
  BitVec.extractLsb'_append_eq_left

@[simp] theorem colorNibble_append (h l : BitVec 4) : colorNibble (h ++ l : BitVec 8) = l :=
  BitVec.extractLsb'_append_eq_right

@[simp] theorem colorNibble_setWidth (n : BitVec 4) : colorNibble (n.setWidth 8) = n := by
  rw [colorNibble, BitVec.extractLsb'_setWidth_of_le (by decide), BitVec.extractLsb'_eq_self]

theorem colorNibble_toNat (c : Color) : (colorNibble c).toNat = c.toNat % 16 := by
  rw [colorNibble, BitVec.extractLsb'_toNat, Nat.shiftRight_zero]

/-! What the masks and the shift do to the two nibbles. -/

theorem and_lowMask_eq_append (b : Byte) : b &&& 0x0F = 0#4 ++ colorNibble b := by
  have mask : (0x0F : Byte) = 0#4 ++ BitVec.allOnes 4 := by decide
  conv_lhs => rw [← highNibble_append_colorNibble b, mask, BitVec.and_append, BitVec.and_zero, BitVec.and_allOnes]

theorem and_highMask_eq_append (b : Byte) : b &&& 0xF0 = highNibble b ++ 0#4 := by
  have mask : (0xF0 : Byte) = BitVec.allOnes 4 ++ 0#4 := by decide
  conv_lhs => rw [← highNibble_append_colorNibble b, mask, BitVec.and_append, BitVec.and_allOnes, BitVec.and_zero]

/-- The shift cuts a byte to its low nibble, whatever its high nibble. -/
theorem shiftLeft_four_eq_append (b : Byte) : b <<< 4 = colorNibble b ++ 0#4 := by
  apply BitVec.eq_of_toNat_eq
  rw [BitVec.toNat_append, colorNibble_toNat, BitVec.toNat_shiftLeft, Nat.shiftLeft_eq, Nat.shiftLeft_eq]
  simp only [BitVec.toNat_ofNat, Nat.zero_mod, Nat.or_zero]
  omega

/-! The encoder and the decoder, by the parity of the column. -/

theorem put_even {x : Nat} (hx : x % 2 = 0) (b : Byte) (c : Color) : put b x c = colorNibble c ++ colorNibble b := by
  rw [put, if_pos hx, nib, and_lowMask_eq_append, and_lowMask_eq_append, shiftLeft_four_eq_append, colorNibble_append,
    BitVec.or_append, BitVec.or_zero, BitVec.zero_or]

theorem put_odd {x : Nat} (hx : ¬x % 2 = 0) (b : Byte) (c : Color) : put b x c = highNibble b ++ colorNibble c := by
  rw [put, if_neg hx, and_highMask_eq_append, nib, and_lowMask_eq_append, BitVec.or_append, BitVec.or_zero,
    BitVec.zero_or]

theorem get_even {x : Nat} (hx : x % 2 = 0) (b : Byte) : get b x = highNibble b := if_pos hx

theorem get_odd {x : Nat} (hx : ¬x % 2 = 0) (b : Byte) : get b x = colorNibble b := if_neg hx

/-! The four laws (30_encoding.md R82). -/

/-- A pixel reads back as the colour's low nibble. -/
theorem get_put_same (b : Byte) (x : Nat) (c : Color) : get (put b x c) x = colorNibble c := by
  by_cases hx : x % 2 = 0
  · rw [get_even hx, put_even hx, highNibble_append]
  · rw [get_odd hx, put_odd hx, colorNibble_append]

/-- The other pixel of the byte is untouched. -/
theorem get_put_of_parity_ne {x x' : Nat} (hparity : x % 2 ≠ x' % 2) (b : Byte) (c : Color) :
    get (put b x c) x' = get b x' := by
  by_cases hx : x % 2 = 0
  · have hx' : ¬x' % 2 = 0 := by omega
    rw [put_even hx, get_odd hx', get_odd hx', colorNibble_append]
  · have hx' : x' % 2 = 0 := by omega
    rw [put_odd hx, get_even hx', get_even hx', highNibble_append]

/-- The last write to a pixel wins. -/
theorem put_put (b : Byte) (x : Nat) (c c' : Color) : put (put b x c) x c' = put b x c' := by
  by_cases hx : x % 2 = 0
  · simp only [put_even hx, colorNibble_append]
  · simp only [put_odd hx, highNibble_append]

/-- Writing a pixel's own value changes nothing. -/
theorem put_get (b : Byte) (x : Nat) : put b x ((get b x).setWidth 8) = b := by
  by_cases hx : x % 2 = 0
  · rw [put_even hx, get_even hx, colorNibble_setWidth, highNibble_append_colorNibble]
  · rw [put_odd hx, get_odd hx, colorNibble_setWidth, highNibble_append_colorNibble]

/-- Settles O25: encoder and decoder are the rule's formulas by definition, and the four laws follow from the nibble each
replaces or reads. -/
theorem pixelCodecLaws : Obligations.PixelCodecLaws := fun b x _ c c' =>
  ⟨rfl, rfl, get_put_same b x c, fun hparity => get_put_of_parity_ne hparity b c, put_put b x c c', put_get b x⟩

/-! The fill byte (30_encoding.md R84). -/

/-- Both pixels of the fill byte are the colour's low nibble. -/
theorem fillByte_eq_append (c : Color) : fillByte c = colorNibble c ++ colorNibble c := by
  rw [fillByte, and_lowMask_eq_append, shiftLeft_four_eq_append, BitVec.or_append, BitVec.or_zero, BitVec.zero_or]

/-- The formula in naturals: the shift is not cut before the byte is. -/
theorem fillByte_toNat_eq_trunc (c : Color) :
    (fillByte c).toNat = ((c.toNat <<< 4) ||| (c.toNat &&& 0xF)) % 256 := by
  have low : (c.toNat &&& 0xF) % 2 ^ 8 = c.toNat &&& 0xF := Nat.mod_eq_of_lt (Nat.and_le_right.trans_lt (by decide))
  calc (fillByte c).toNat = (c.toNat <<< 4) % 2 ^ 8 ||| (c.toNat &&& 0xF) := by
        rw [fillByte, BitVec.toNat_or, BitVec.toNat_shiftLeft, BitVec.toNat_and]; rfl
    _ = ((c.toNat <<< 4) ||| (c.toNat &&& 0xF)) % 2 ^ 8 := by rw [Nat.or_mod_two_pow, low]

theorem fillByte_toNat_eq_add (c : Color) : (fillByte c).toNat = c.toNat % 16 * 16 + c.toNat % 16 := by
  have nibble : c.toNat % 16 < 2 ^ 4 := Nat.mod_lt _ (by decide)
  rw [fillByte_eq_append, BitVec.toNat_append, colorNibble_toNat, ← Nat.shiftLeft_add_eq_or_of_lt nibble,
    Nat.shiftLeft_eq]

/-- Settles O26: the sum of the two nibbles' weights is the nibble times 17, and the examples evaluate. -/
theorem fillByteLaw : Obligations.FillByteLaw := by
  refine ⟨fun c => ⟨fillByte_toNat_eq_trunc c, fillByte_toNat_eq_add c, ?timesSeventeen⟩, by decide⟩
  case timesSeventeen => rw [fillByte_toNat_eq_add, ← Nat.mul_succ]

end Sys2Proof.Machine

/-! ### SETPIX (43_framebuffer.md R170, R171, R174)

An in-range pixel has its byte, so SETPIX answers with that byte written. The pixels of a row of `2 * PW` nibbles share
neither index nor half, so reading any of them back meets the written nibble, the kept nibble of the same byte, or
another byte. -/

namespace Sys2Proof.Machine

theorem inRange_iff (s : State) (x y : Nat) : inRange s x y = true ↔ x < s.resX.toNat ∧ y < s.resY.toNat := by
  rw [inRange, Bool.and_eq_true, decide_eq_true_iff, decide_eq_true_iff]

theorem GeometryCoherent.fbSize_eq_bsz {s : State} (hg : GeometryCoherent s) : fbSize s = s.bsz.toNat := by
  obtain ⟨-, -, -, hsize⟩ := hg
  rw [fbSize, hsize, Option.getD_some]

theorem Ready.constructed {s : State} (hs : Ready s) : s.life = .constructed := hs.1

theorem Ready.geometryCoherent {s : State} (hs : Ready s) : GeometryCoherent s := by
  obtain ⟨hlife, hconstructed, -⟩ := hs
  obtain ⟨-, -, -, hg⟩ := hconstructed hlife
  exact hg

theorem Ready.fbWf {s : State} (hs : Ready s) : fbWf s = true := by
  obtain ⟨-, -, -, -, -, -, hfb, -⟩ := hs
  exact hfb

/-- The byte of an in-range pixel exists (R171). -/
theorem GeometryCoherent.pixel_byte_exists {s : State} (hg : GeometryCoherent s) {x y : Nat} (hx : x < s.resX.toNat)
    (hy : y < s.resY.toNat) : ∃ b, readFb s (pixelIndex s.pw.toNat x y) = some b := by
  rw [← Option.isSome_iff_exists, readFb_isSome_iff, hg.fbSize_eq_bsz]
  exact hg.pixelIndex_lt_bsz hx hy

/-- A pixel write in range whose byte exists completes with that byte written. -/
theorem setPixel_of_readFb {s : State} {x y : Nat} {b : Byte} (c : Color) (hrange : inRange s x y = true)
    (hb : readFb s (pixelIndex s.pw.toNat x y) = some b) :
    setPixel x y c s = .done () (writeFb s (pixelIndex s.pw.toNat x y) (put b x c)) := by
  rw [setPixel, if_pos hrange, hb]

theorem exec_setpix (x y : Coord) (c : Color) (s : State) : exec (.setpix x y c) s =
    request .setpix (fun t => (setPixel x.toNat y.toNat c t).answer fun _ => .ok) s := rfl

/-- SETPIX in a Constructed state answers what its pixel write completes with. -/
theorem exec_setpix_of_done {s t : State} {x y : Coord} {c : Color} (hlife : s.life = .constructed)
    (hdone : setPixel x.toNat y.toNat c s = .done () t) :
    exec (.setpix x y c) s = .next { t with result := .ok } := by
  rw [exec_setpix, request_constructed hlife, hdone, answer_done, finish_done]

section Write

variable {s : State} {i : Nat} (v : Byte)

theorem readFb_writeFb_same (hwf : fbWf s = true) (hi : (readFb s i).isSome) : readFb (writeFb s i v) i = some v := by
  rw [readFb_writeFb v hwf, if_pos rfl, if_pos ((readFb_isSome_iff s i).mp hi)]

theorem readFb_writeFb_other (hwf : fbWf s = true) {j : Nat} (hj : j ≠ i) : readFb (writeFb s i v) j = readFb s j := by
  rw [readFb_writeFb v hwf, if_neg hj]

end Write

/-- Every nibble of the rows after a pixel write: the written one, the other one of its byte, and those of the other
bytes. -/
theorem pix_writeFb_put {s : State} {x y px py : Nat} {b : Byte} (c : Color) (hwf : fbWf s = true)
    (hb : readFb s (pixelIndex s.pw.toNat x y) = some b) (hx : x / 2 < s.pw.toNat) (hpx : px / 2 < s.pw.toNat) :
    pix (writeFb s (pixelIndex s.pw.toNat x y) (put b x c)) px py =
      if px = x ∧ py = y then some (colorNibble c) else pix s px py := by
  have hwritten := readFb_writeFb_same (put b x c) hwf (Option.isSome_of_eq_some hb)
  rw [pix, writeFb_pw]
  by_cases hindex : pixelIndex s.pw.toNat px py = pixelIndex s.pw.toNat x y
  · rw [hindex, hwritten, Option.map_some]
    by_cases hhalf : px % 2 = x % 2
    · obtain ⟨rfl, rfl⟩ := pixelIndex_inj hpx hx hindex hhalf
      rw [get_put_same, if_pos ⟨rfl, rfl⟩]
    · have hother : ¬(px = x ∧ py = y) := fun ⟨heq, _⟩ => hhalf (heq ▸ rfl)
      rw [get_put_of_parity_ne (Ne.symm hhalf), if_neg hother, pix, hindex, hb, Option.map_some]
  · have hother : ¬(px = x ∧ py = y) := fun ⟨hcolumn, hrow⟩ => hindex (hcolumn ▸ hrow ▸ rfl)
    rw [readFb_writeFb_other _ hwf hindex, if_neg hother, pix]

/-- A pixel write draws exactly its pixel, whatever outcome the request then records. -/
theorem drawsExactly_writeFb_put {s : State} {x y : Nat} {b : Byte} (c : Color) (v : Result) (hwf : fbWf s = true)
    (hb : readFb s (pixelIndex s.pw.toNat x y) = some b) (hx : x / 2 < s.pw.toNat) :
    DrawsExactly s { writeFb s (pixelIndex s.pw.toNat x y) (put b x c) with result := v }
      (fun px py => decide (px = x) && decide (py = y)) (fun _ _ => colorNibble c) := by
  refine ⟨rfl, writeFb_size .., ?pixels, ?otherBytes⟩
  case pixels =>
    intro px py hpx _
    simp only [Bool.and_eq_true, decide_eq_true_iff]
    exact pix_writeFb_put c hwf hb hx (Nat.div_lt_of_lt_mul hpx)
  case otherBytes =>
    intro j hj
    exact readFb_writeFb_other _ hwf (hj x y (by simp))

/-- Settles O28: the byte of the pixel exists, and the answered state is `s` with that byte written. -/
theorem setpixWritesOneNibble : Obligations.SetpixWritesOneNibble := by
  intro s x y c hs hx hy
  have hg := hs.geometryCoherent
  obtain ⟨b, hb⟩ := hg.pixel_byte_exists hx hy
  have hdone := setPixel_of_readFb c ((inRange_iff ..).mpr ⟨hx, hy⟩) hb
  refine ⟨_, exec_setpix_of_done hs.constructed hdone, rfl, rfl, drawsExactly_writeFb_put c _ hs.fbWf hb (hg.half_lt_pw hx),
    fun _ _ => rfl, fun b' hb' => ?byte⟩
  case byte =>
    obtain rfl : b = b' := Option.some.inj (hb.symm.trans hb')
    refine (readFb_writeFb_same _ hs.fbWf (Option.isSome_of_eq_some hb)).trans (congrArg some ?_)
    by_cases heven : x.toNat % 2 = 0
    · rw [if_pos heven]
      exact put_even heven b c
    · rw [if_neg heven]
      exact put_odd heven b c

end Sys2Proof.Machine

/-! ### The checks of a request, and what it can raise after them (60_exceptions.md R236, R238, R239)

Every request but INIT is `request` with its mnemonic and a body. A body, and INIT after its own two checks, raises only
errors of the environment, of a coordinate or of a source: `GeometryRefused` is left to INIT's check of its operands. -/

namespace Sys2Proof.Machine

/-- The error is none of the three that a check raises before a request has done anything (60_exceptions.md R236, R238,
R239). -/
def Err.AfterChecks : Err → Prop
  | .allocationFailure | .busAttachFailure | .transportFailure .. | .coordOutOfRange .. | .sourceUnderrun .. => True
  | .lifecycleViolation _ | .illegalRequest _ | .geometryRefused .. => False

/-- Every error the part raises satisfies `E`. -/
def Res.Raises {α : Type} (E : Err → Prop) : Res α → Prop
  | .done _ _ => True
  | .raised e _ => E e
  | .stopped _ => True

/-- Every error the request ends with, raised or answered, satisfies `E`. -/
def Res.Answers (E : Err → Prop) : Res Result → Prop
  | .done v _ => ∀ e, v = .raised e → E e
  | .raised e _ => E e
  | .stopped _ => True

/-! Parts of a request. -/

section Parts

variable {α β : Type} {E : Err → Prop}

theorem Res.Raises.andThen {r : Res α} {k : α → State → Res β} (hr : r.Raises E) (hk : ∀ a s, (k a s).Raises E) :
    (r.andThen k).Raises E := by
  cases r with
  | done a s => exact hk a s
  | raised e s => exact hr
  | stopped f => trivial

theorem Res.Raises.onRaise {r : Res α} (k : State → State) (hr : r.Raises E) : (r.onRaise k).Raises E := by
  cases r with
  | done a s => trivial
  | raised e s => exact hr
  | stopped f => trivial

theorem forEach_raises {f : α → State → Res Unit} (hf : ∀ a s, (f a s).Raises E) (as : List α) (s : State) :
    (forEach f as s).Raises E := by
  induction as generalizing s with
  | nil => trivial
  | cons a as ih => exact (hf a s).andThen fun _ t => ih t

/-- A part whose value the port answers ends with the errors it raises. -/
theorem Res.Raises.answer {r : Res α} {v : α → Result} (hr : r.Raises E) (hv : ∀ a e, v a ≠ .raised e) :
    (r.answer v).Answers E := by
  cases r with
  | done a s => exact fun e he => absurd he (hv a e)
  | raised e s => exact hr
  | stopped f => trivial

theorem Res.Raises.answerOk {r : Res α} (hr : r.Raises E) : (r.answer fun _ => .ok).Answers E :=
  hr.answer fun _ _ => Result.noConfusion

/-- The outcome a request ends with is one of those its body allows. -/
theorem Res.Answers.of_finish {r : Res Result} {t : State} {e : Err} (hr : r.Answers E) (hnext : finish r = .next t)
    (hresult : t.result = .raised e) : E e := by
  obtain ⟨v, s, rfl, rfl⟩ | ⟨e', s, rfl, rfl⟩ := finish_next hnext
  · exact hr e hresult
  · obtain rfl : e' = e := Result.raised.inj hresult
    exact hr

end Parts

/-! Sources (30_encoding.md R89, R90, 20_memory.md R61). -/

theorem srcRead_error {env : Env} {r : Ref} {i : Nat} {e : Err} (h : srcRead env r i = .error e) :
    e = .sourceUnderrun r i := by
  unfold srcRead at h
  split at h
  · cases h
  · exact (Except.error.inj h).symm

theorem gather_error {env : Env} {r : Ref} {is : List Nat} {e : Err} (h : gather env r is = .error e) :
    ∃ i, e = .sourceUnderrun r i := by
  induction is with
  | nil => cases h
  | cons i is ih =>
    unfold gather at h
    split at h
    next e' hread =>
      cases h
      exact ⟨i, srcRead_error hread⟩
    next b hread =>
      split at h
      next e' hrest =>
        cases h
        exact ih hrest
      next => cases h

/-- Pixel `k` of the source is read from byte `byteOf k`, which the stream may not have. -/
def ReadsByte (color : Env → Ref → Nat → Except Err Color) (byteOf : Nat → Nat) : Prop :=
  ∀ env r k e, color env r k = .error e → e = .sourceUnderrun r (byteOf k)

theorem color4_readsByte : ReadsByte color4 (· / 2) := by
  intro env r k e h
  unfold color4 at h
  split at h
  next => cases h
  next e' hread =>
    cases h
    exact srcRead_error hread

theorem color8_readsByte : ReadsByte color8 id := by
  intro env r k e h
  unfold color8 at h
  split at h
  next => cases h
  next e' hread =>
    cases h
    exact srcRead_error hread

/-- Glyph bitmaps are read in one of the two source formats (44_blitter.md R197). -/
theorem glyphColor_eq : glyphColor = color4 ∨ glyphColor = color8 := by
  unfold glyphColor
  cases Config.glyphFmt with
  | four => exact .inl rfl
  | eight => exact .inr rfl

/-! What each shared operation raises. -/

theorem setPixel_raises (x y : Nat) (c : Color) (s : State) : (setPixel x y c s).Raises Err.AfterChecks := by
  obtain ⟨b, -, -, h⟩ | ⟨-, h⟩ | ⟨-, -, h⟩ := setPixel_cases x y c s <;> rw [h] <;> trivial

theorem getPixel_raises (x y : Nat) (s : State) : (getPixel x y s).Raises Err.AfterChecks := by
  unfold getPixel
  split
  next => split <;> trivial
  next => trivial

theorem fillFb_raises (c : Color) (s : State) : (fillFb c s).Raises Err.AfterChecks := by
  obtain ⟨-, h⟩ | ⟨-, h⟩ := fillFb_cases c s <;> rw [h] <;> trivial

/-- A bitmap whose colours come from a source raises a missing byte or a bad pixel. -/
theorem blit_raises {color : Env → Ref → Nat → Except Err Color} {byteOf : Nat → Nat}
    (hcolor : ReadsByte color byteOf) (x y : Nat) (r : Ref) (w h : Nat) (s : State) :
    (blit color x y r w h s).Raises Err.AfterChecks := by
  refine forEach_raises (fun k t => ?_) _ s
  split
  next c _ => exact setPixel_raises _ _ c t
  next e herror =>
    obtain rfl := hcolor _ _ _ _ herror
    trivial

theorem drawChar_raises (x y : Nat) (ch : Byte) (font : Ref) (s : State) :
    (drawChar x y ch font s).Raises Err.AfterChecks := by
  unfold drawChar
  split
  next =>
    refine Res.Raises.andThen ?_ fun _ _ => trivial
    obtain h | h := glyphColor_eq <;> rw [h]
    · exact blit_raises color4_readsByte ..
    · exact blit_raises color8_readsByte ..
  next => trivial

theorem drawString_raises (y : Nat) (font : Ref) (chs : List Byte) (cur : Nat) (s : State) :
    (drawString y font chs cur s).Raises Err.AfterChecks := by
  induction chs generalizing cur s with
  | nil => trivial
  | cons ch rest ih =>
    unfold drawString
    split
    next => trivial
    next =>
      split
      next => trivial
      next => exact (drawChar_raises ..).andThen fun _ _ => ih ..

theorem transmit_raises (d : Bool) (bs : List Byte) (code : Byte) (s : State) :
    (transmit d bs code s).Raises Err.AfterChecks := by
  obtain ⟨-, h⟩ | ⟨-, h⟩ | ⟨-, h⟩ := transmit_cases d bs code s <;> rw [h] <;> trivial

theorem sendPayload_raises (code : Byte) (bs : List Byte) (s : State) :
    (sendPayload code bs s).Raises Err.AfterChecks := by
  cases bs with
  | nil => trivial
  | cons b bs => exact transmit_raises ..

theorem sendBytes_raises (code : Byte) (bs : List Byte) (s : State) : (sendBytes code bs s).Raises Err.AfterChecks :=
  (transmit_raises ..).andThen fun _ _ => (sendPayload_raises ..).andThen fun _ _ => trivial

theorem sendCmd_raises (c : Cmd) (bs : List Byte) (s : State) : (sendCmd c bs s).Raises Err.AfterChecks :=
  sendBytes_raises ..

theorem sendFrom_raises (code : Byte) (r : Ref) (n : Nat) (s : State) : (sendFrom code r n s).Raises Err.AfterChecks := by
  unfold sendFrom
  split
  next => exact sendBytes_raises ..
  next e herror =>
    obtain ⟨i, rfl⟩ := gather_error herror
    trivial

theorem sendColumns_raises (a b : Nat) (s : State) : (sendColumns a b s).Raises Err.AfterChecks :=
  (sendCmd_raises ..).andThen fun _ _ => trivial

theorem sendRows_raises (a b : Nat) (s : State) : (sendRows a b s).Raises Err.AfterChecks :=
  (sendCmd_raises ..).andThen fun _ _ => trivial

theorem sendFb_raises (s : State) : (sendFb s).Raises Err.AfterChecks := by
  unfold sendFb withFb
  split
  next => exact sendCmd_raises ..
  next => trivial

theorem flushFb_raises (s : State) : (flushFb s).Raises Err.AfterChecks :=
  Res.Raises.onRaise _ <|
    Res.Raises.andThen (sendColumns_raises ..) fun _ _ => Res.Raises.andThen (sendRows_raises ..) fun _ t => sendFb_raises t

/-! The bodies of INIT and DEINIT (41_reset_init.md R125, R136). -/

theorem runEntry_raises (e : Entry) (s : State) : (runEntry e s).Raises Err.AfterChecks := by
  cases e with
  | send c p => exact sendCmd_raises ..
  | fullColumns => exact sendColumns_raises ..
  | fullRows => exact sendRows_raises ..
  | clear => exact fillFb_raises ..
  | writeBuffer => exact sendFb_raises s

theorem runEntries_raises (es : List Entry) (s : State) : (runEntries es s).Raises Err.AfterChecks := by
  induction es generalizing s with
  | nil => trivial
  | cons e es ih => exact (runEntry_raises e s).andThen fun _ t => ih (advance t)

theorem construct_answers (s : State) : (construct s).Answers Err.AfterChecks := by
  have hprogram : (runProgram (resetPulse (configurePins s))).Raises Err.AfterChecks := runEntries_raises ..
  unfold construct
  split
  next => exact fun _ => Result.noConfusion
  next hraised => rwa [hraised] at hprogram
  next => trivial

/-- INIT past its two checks refuses no geometry. -/
theorem acquire_answers (x y : Coord) (s : State) : (acquire x y s).Answers Err.AfterChecks := by
  unfold acquire
  split
  next => trivial
  next =>
    split
    next => trivial
    next => exact construct_answers _

theorem deinitBody_answers (s : State) : (deinitBody s).Answers Err.AfterChecks := by
  have hsleep := sendCmd_raises .sleepOn [] s
  unfold deinitBody
  split
  next => exact fun _ => Result.noConfusion
  next hraised => rwa [hraised] at hsleep
  next => trivial

/-! The requests. -/

/-- The instruction is a request of this mnemonic with the common lifecycle check, and its body raises only what can
come after the checks. -/
def RunsAsRequest (i : Instr) (op : Op) : Prop :=
  ∃ body : State → Res Result, (∀ s, exec i s = request op body s) ∧ ∀ s, (body s).Answers Err.AfterChecks

/-- INIT alone has a lifecycle check of its own (60_exceptions.md R250). -/
theorem runsAsRequest {i : Instr} {op : Op} (hop : requestOp i = some op) (hinit : op ≠ .init) : RunsAsRequest i op := by
  cases i <;> cases hop
  case init => exact absurd rfl hinit
  case deinit => exact ⟨_, fun _ => rfl, deinitBody_answers⟩
  case hwreset => exact ⟨_, fun _ => rfl, fun _ _ => Result.noConfusion⟩
  case send => exact ⟨_, fun _ => rfl, fun _ => (sendFrom_raises ..).answerOk⟩
  case colwin => exact ⟨_, fun _ => rfl, fun _ => (sendColumns_raises ..).answerOk⟩
  case rowwin => exact ⟨_, fun _ => rfl, fun _ => (sendRows_raises ..).answerOk⟩
  case setpix => exact ⟨_, fun _ => rfl, fun _ => (setPixel_raises ..).answerOk⟩
  case getpix => exact ⟨_, fun _ => rfl, fun _ => (getPixel_raises ..).answer fun _ _ => Result.noConfusion⟩
  case fill => exact ⟨_, fun _ => rfl, fun _ => (fillFb_raises ..).answerOk⟩
  case flush => exact ⟨_, fun _ => rfl, fun _ => (flushFb_raises _).answerOk⟩
  case hline => exact ⟨_, fun _ => rfl, fun _ => (forEach_raises (fun _ => setPixel_raises _ _ _) ..).answerOk⟩
  case vline => exact ⟨_, fun _ => rfl, fun _ => (forEach_raises (fun _ => setPixel_raises _ _ _) ..).answerOk⟩
  case bmp4 => exact ⟨_, fun _ => rfl, fun _ => (blit_raises color4_readsByte ..).answerOk⟩
  case bmp8 => exact ⟨_, fun _ => rfl, fun _ => (blit_raises color8_readsByte ..).answerOk⟩
  case char => exact ⟨_, fun _ => rfl, fun _ => (drawChar_raises ..).answer fun _ _ => Result.noConfusion⟩
  case str => exact ⟨_, fun _ => rfl, fun _ => (drawString_raises ..).answerOk⟩
  case graytab => exact ⟨_, fun _ => rfl, fun _ => (sendFrom_raises ..).answerOk⟩
  case modenorm | modeinv | modeon | modeoff | sleep | wake | graydef | setcon | setbri =>
    exact ⟨_, fun _ => rfl, fun _ => (sendCmd_raises ..).answerOk⟩

theorem requestOp_eq_init {i : Instr} (h : requestOp i = some .init) : ∃ tr p x y, i = .init tr p x y := by
  cases i <;> cases h
  exact ⟨_, _, _, _, rfl⟩

/-- A request with the common check ends with its `LifecycleViolation` or with an error of its body. -/
theorem request_raised {op : Op} {body : State → Res Result} {s t : State} {e : Err} {E : Err → Prop}
    (hbody : (body s).Answers E) (hnext : request op body s = .next t) (hresult : t.result = .raised e) :
    e = .lifecycleViolation op ∨ E e := by
  by_cases hlife : s.life = .constructed
  · rw [request_constructed hlife] at hnext
    exact .inr (hbody.of_finish hnext hresult)
  · rw [request_violation hlife] at hnext
    cases hnext
    exact .inl (Result.raised.inj hresult).symm

/-! INIT, by its two checks (41_reset_init.md R125, R128). -/

theorem exec_init_of_constructed {s : State} (tr p : Ref) (x y : Coord) (hlife : s.life = .constructed) :
    exec (.init tr p x y) s = .next (takeError (.lifecycleViolation .init) s) :=
  if_pos hlife

theorem exec_init_of_geometryOk {s : State} (tr p : Ref) {x y : Coord} (hlife : s.life ≠ .constructed)
    (hok : geometryOk x y = true) : exec (.init tr p x y) s = finish (acquire x y s) :=
  (if_neg hlife).trans (if_pos hok)

theorem exec_init_of_refused {s : State} (tr p : Ref) {x y : Coord} (hlife : s.life ≠ .constructed)
    (hbad : ¬geometryOk x y = true) : exec (.init tr p x y) s = .next (takeError (.geometryRefused x y) s) :=
  (if_neg hlife).trans (if_neg hbad)

/-- The geometry INIT refuses: outside 1 to 256 by 1 to 128 (00_scope.md R7). -/
theorem not_geometryOk_iff (x y : Coord) :
    ¬geometryOk x y = true ↔ x.toNat = 0 ∨ 256 < x.toNat ∨ y.toNat = 0 ∨ 128 < y.toNat := by
  simp only [geometryOk, Bool.and_eq_true, decide_eq_true_eq]
  simp only [Config.maxResX, Config.maxResY]
  omega

/-- INIT refuses no geometry but its own operands', and those only outside the range. -/
theorem init_geometryRefused {tr p : Ref} {x y x' y' : Coord} {s t : State} (hnext : exec (.init tr p x y) s = .next t)
    (hresult : t.result = .raised (.geometryRefused x' y')) : x' = x ∧ y' = y ∧ ¬geometryOk x y = true := by
  by_cases hlife : s.life = .constructed
  · rw [exec_init_of_constructed tr p x y hlife] at hnext
    cases hnext
    cases hresult
  · by_cases hok : geometryOk x y = true
    · rw [exec_init_of_geometryOk tr p hlife hok] at hnext
      exact ((acquire_answers x y s).of_finish hnext hresult).elim
    · rw [exec_init_of_refused tr p hlife hok] at hnext
      cases hnext
      cases hresult
      exact ⟨rfl, rfl, hok⟩

/-! Taking an error as the statements write it (10_state.md R29). -/

/-- A recorded error changes the outcome and, where no fault was recorded before, `FAULT`. -/
theorem takeError_eq_raisedIn {e : Err} (s : State) (hrec : e.recorded = true) : takeError e s = raisedIn s e := by
  have hfault : faultAfter s.fault e = faultRecord s e := by
    unfold faultAfter faultRecord
    cases s.fault with
    | none => exact if_pos hrec
    | some f => rfl
  rw [takeError, hfault, raisedIn]

/-- Settles O17: INIT's second check refuses the geometry; an outcome `GeometryRefused` comes from no other request,
whose errors are its `LifecycleViolation` and those of its body, and not from INIT past its checks. -/
theorem geometryRefusals : Obligations.GeometryRefusals := by
  refine ⟨fun s tr p x y hlife hbad => ?refused, fun i s t x y hrequest hnext hresult => ?initAlone⟩
  case refused =>
    rw [exec_init_of_refused tr p hlife ((not_geometryOk_iff x y).mpr hbad), takeError_eq_raisedIn s rfl]
  case initAlone =>
    obtain ⟨op, hop⟩ := Option.ne_none_iff_exists'.mp hrequest
    by_cases hinit : op = .init
    · subst hinit
      obtain ⟨tr, p, x', y', rfl⟩ := requestOp_eq_init hop
      obtain ⟨rfl, rfl, hbad⟩ := init_geometryRefused hnext hresult
      exact ⟨⟨tr, p, rfl⟩, (not_geometryOk_iff x y).mp hbad⟩
    · obtain ⟨body, hexec, hbody⟩ := runsAsRequest hop hinit
      rw [hexec] at hnext
      obtain hviolation | hafter := request_raised (hbody s) hnext hresult
      · cases hviolation
      · exact hafter.elim

/-- Settles O16: the lifecycle check comes first, in `request` and in INIT, and its error is a recorded one. -/
theorem lifecycleViolations : Obligations.LifecycleViolations := by
  refine ⟨fun i s op hop hinit hlife => ?requests, fun s tr p x y hlife => ?init⟩
  case requests =>
    obtain ⟨body, hexec, -⟩ := runsAsRequest hop hinit
    rw [hexec, request_violation hlife, takeError_eq_raisedIn s rfl]
  case init =>
    rw [exec_init_of_constructed tr p x y hlife, takeError_eq_raisedIn s rfl]

end Sys2Proof.Machine

/-! ### Decoder and encoder (30_encoding.md R85, R92, R94 to R98)

A request word keeps its opcode and its five slots apart, so each field reads back what was put there; opcodes and command
codes name one mnemonic each. What a command decodes to is said once per payload shape. -/

namespace Sys2Proof.Machine

/-! The fields of a request word. -/

section Fields

variable (o : Op) (a b c d e : BitVec 16)

@[simp] theorem fieldOp_reqWord : fieldOp (reqWord o a b c d e) = Config.opcode o :=
  Sys2Proof.Laws.OpcodeByte.fieldOp_reqWord o a b c d e

@[simp] theorem fieldA_reqWord : fieldA (reqWord o a b c d e) = a := by
  rw [fieldA, reqWord, BitVec.extractLsb'_append_eq_of_le (by decide), BitVec.extractLsb'_append_eq_right]

@[simp] theorem fieldB_reqWord : fieldB (reqWord o a b c d e) = b := by
  rw [fieldB, reqWord, BitVec.extractLsb'_append_eq_of_le (by decide), BitVec.extractLsb'_append_eq_of_le (by decide),
    BitVec.extractLsb'_append_eq_right]

@[simp] theorem fieldC_reqWord : fieldC (reqWord o a b c d e) = c := by
  rw [fieldC, reqWord, BitVec.extractLsb'_append_eq_of_le (by decide), BitVec.extractLsb'_append_eq_of_le (by decide),
    BitVec.extractLsb'_append_eq_of_le (by decide), BitVec.extractLsb'_append_eq_right]

@[simp] theorem fieldD_reqWord : fieldD (reqWord o a b c d e) = d := by
  rw [fieldD, reqWord, BitVec.extractLsb'_append_eq_of_le (by decide), BitVec.extractLsb'_append_eq_of_le (by decide),
    BitVec.extractLsb'_append_eq_of_le (by decide), BitVec.extractLsb'_append_eq_of_le (by decide),
    BitVec.extractLsb'_append_eq_right]

@[simp] theorem fieldE_reqWord : fieldE (reqWord o a b c d e) = e := by
  rw [fieldE, reqWord, BitVec.extractLsb'_append_eq_of_le (by decide), BitVec.extractLsb'_append_eq_of_le (by decide),
    BitVec.extractLsb'_append_eq_of_le (by decide), BitVec.extractLsb'_append_eq_of_le (by decide)]
  exact BitVec.extractLsb'_append_eq_left

end Fields

/-- A byte operand is the low byte of its slot (R94, R96). -/
@[simp] theorem lowByte_byteSlot (v : Byte) : lowByte (byteSlot v) = v := by
  rw [lowByte, byteSlot, BitVec.extractLsb'_setWidth_of_le (by decide), BitVec.extractLsb'_eq_self]

/-! Opcodes and command codes name one mnemonic each (R92, R95). -/

theorem opOf_opcode (o : Op) : opOf (Config.opcode o) = some o := by
  cases o <;> decide

theorem opcode_of_opOf {b : Byte} {o : Op} (h : opOf b = some o) : Config.opcode o = b :=
  eq_of_beq (List.find?_some (p := fun o => Config.opcode o == b) h)

theorem opOf_eq_none {b : Byte} (h : ∀ o, Config.opcode o ≠ b) : opOf b = none :=
  List.find?_eq_none.mpr fun o _ hb => h o (eq_of_beq hb)

theorem cmdOf_cmdCode (c : Cmd) : cmdOf (Config.cmdCode c) = some c := by
  cases c <;> decide

theorem cmdCode_of_cmdOf {b : Byte} {c : Cmd} (h : cmdOf b = some c) : Config.cmdCode c = b :=
  eq_of_beq (List.find?_some (p := fun c => Config.cmdCode c == b) h)

/-! What the decoder answers. -/

theorem decode_request_of_opOf {w : ReqWord} {o : Op} (h : opOf (fieldOp w) = some o) :
    decode (.request w) = .ok (requestOf w o) := by
  rw [decode, decodeRequest, h]

theorem decode_request_of_unassigned {w : ReqWord} (h : ∀ o, Config.opcode o ≠ fieldOp w) :
    decode (.request w) = .error (.illegalRequest (fieldOp w)) := by
  rw [decode, decodeRequest, opOf_eq_none h]

/-- A word that decodes names a mnemonic, and the instruction is that mnemonic's with the word's slots. -/
theorem decode_request_ok {w : ReqWord} {i : Instr} (h : decode (.request w) = .ok i) :
    ∃ o, Config.opcode o = fieldOp w ∧ i = requestOf w o := by
  cases ho : opOf (fieldOp w) with
  | none =>
    rw [decode, decodeRequest, ho] at h
    cases h
  | some o =>
    rw [decode_request_of_opOf ho] at h
    exact ⟨o, opcode_of_opOf ho, (Except.ok.inj h).symm⟩

theorem decode_reqWord (o : Op) (a b c d e : BitVec 16) :
    decode (.request (reqWord o a b c d e)) = .ok (requestOf (reqWord o a b c d e) o) :=
  decode_request_of_opOf (by rw [fieldOp_reqWord, opOf_opcode])

theorem decode_cmdForm (c : Cmd) (p : List Byte) : decode (cmdForm c p) = commandOf p c := by
  rw [cmdForm, decode, decodeCommand, cmdOf_cmdCode]

/-- A command that decodes is one of the 26 with its payload. -/
theorem decode_command_ok {code : Byte} {p : List Byte} {i : Instr} (h : decode (.command code p) = .ok i) :
    ∃ c, Config.cmdCode c = code ∧ commandOf p c = .ok i := by
  cases hc : cmdOf code with
  | none =>
    rw [decode, decodeCommand, hc] at h
    cases h
  | some c =>
    rw [decode, decodeCommand, hc] at h
    exact ⟨c, cmdCode_of_cmdOf hc, h⟩

/-! What a payload shape accepts (R92). -/

theorem noPayload_ok {c : Cmd} {i j : Instr} {p : List Byte} (h : noPayload c i p = .ok j) : p = [] ∧ j = i := by
  unfold noPayload at h
  split at h <;> cases h
  exact ⟨rfl, rfl⟩

theorem oneByte_ok {c : Cmd} {f : Byte → Instr} {j : Instr} {p : List Byte} (h : oneByte c f p = .ok j) :
    ∃ v, p = [v] ∧ j = f v := by
  unfold oneByte at h
  split at h <;> cases h
  exact ⟨_, rfl, rfl⟩

theorem twoBytes_ok {c : Cmd} {f : Byte → Byte → Instr} {j : Instr} {p : List Byte} (h : twoBytes c f p = .ok j) :
    ∃ u v, p = [u, v] ∧ j = f u v := by
  unfold twoBytes at h
  split at h <;> cases h
  exact ⟨_, _, rfl, rfl⟩

theorem listPayload_of_wellFormed {c : Cmd} {f : List Byte → Instr} {p : List Byte} (h : (f p).wellFormed = true) :
    listPayload c f p = .ok (f p) := if_pos h

theorem listPayload_ok {c : Cmd} {f : List Byte → Instr} {j : Instr} {p : List Byte} (h : listPayload c f p = .ok j) :
    (f p).wellFormed = true ∧ j = f p := by
  unfold listPayload at h
  split at h <;> cases h
  exact ⟨by assumption, rfl⟩

/-- Settles O1: a request's slots read back, and a command's payload has the shape of its descriptor. -/
theorem decodeOfEncode : Obligations.DecodeOfEncode := by
  intro i hwf
  cases i
  case cmdEnh1 | cmdEnh2 | cmdRemap | cmdWriteRam | cmdGrayTable =>
    exact (decode_cmdForm ..).trans (listPayload_of_wellFormed hwf)
  case cmdUnlock | cmdSleepOn | cmdClock | cmdFuncsel | cmdPrechargeV | cmdPrecharge2 | cmdVcomh | cmdMux | cmdExitPartial
      | cmdSetCol | cmdSetRow | cmdOffset | cmdStartline | cmdSleepOff | cmdGrayDefault | cmdContrast | cmdBrightness
      | cmdNormal | cmdInvert | cmdAllOn | cmdAllOff =>
    exact decode_cmdForm ..
  all_goals
    rw [encode, decode_reqWord]
    simp [requestOf]

/-- A command accepts a payload only for a well-formed instruction, whose form it is. -/
theorem commandOf_ok {p : List Byte} {c : Cmd} {i : Instr} (h : commandOf p c = .ok i) :
    i.wellFormed = true ∧ encode i = cmdForm c p := by
  cases c
  case enh1 | enh2 | remap | writeRam | grayTable =>
    obtain ⟨hwf, rfl⟩ := listPayload_ok h
    exact ⟨hwf, rfl⟩
  case sleepOn | exitPartial | sleepOff | grayDefault | normal | invert | allOn | allOff =>
    obtain ⟨rfl, rfl⟩ := noPayload_ok h
    exact ⟨rfl, rfl⟩
  case setCol | setRow =>
    obtain ⟨u, v, rfl, rfl⟩ := twoBytes_ok h
    exact ⟨rfl, rfl⟩
  all_goals
    obtain ⟨v, rfl, rfl⟩ := oneByte_ok h
    exact ⟨rfl, rfl⟩

/-- Every request is well formed, and its form is a word of its opcode (R96, R98). -/
theorem encode_requestOf (w : ReqWord) (o : Op) :
    (requestOf w o).wellFormed = true ∧ ∃ a b c d e, encode (requestOf w o) = .request (reqWord o a b c d e) := by
  cases o <;> exact ⟨rfl, _, _, _, _, _, rfl⟩

/-- Settles O2: a command form by its descriptor, a request word by its opcode and the round trip of O1. -/
theorem encodeOfDecode : Obligations.EncodeOfDecode := by
  refine ⟨fun code p i h => ?command, fun w i h => ?request⟩
  case command =>
    obtain ⟨c, rfl, hc⟩ := decode_command_ok h
    exact commandOf_ok hc
  case request =>
    obtain ⟨o, hop, rfl⟩ := decode_request_ok h
    obtain ⟨hwf, a, b, c, d, e, hencode⟩ := encode_requestOf w o
    refine ⟨hwf, _, hencode, ?_, (fieldOp_reqWord ..).trans hop⟩
    rw [← hencode, decodeOfEncode _ hwf]

/-- Settles O3, by evaluating the decoder on each word written out. -/
theorem vectorWordsDecode : Obligations.VectorWordsDecode := by
  refine ⟨?_, ?_, ?_, ?_, ?_, ?_, ?_⟩ <;> decide

/-! ### What a step takes (00_scope.md R13, log 2, 3) -/

section Step

variable {s : State}

theorem step_of_command {i : Instr} {code : Byte} {p : List Byte} {rest : List BusEvent}
    (hwire : s.wire = .command code p :: rest) (hdecode : decode (.command code p) = .ok i) :
    step s = exec i { s with wire := rest } := by
  simp only [step, fetch, hwire, fetchCommand, hdecode]

theorem step_of_undescribed {code : Byte} {p : List Byte} {rest : List BusEvent} {r : Reject}
    (hwire : s.wire = .command code p :: rest) (hdecode : decode (.command code p) = .error r) :
    step s = .next (ctrlUndescribed code { s with wire := rest }) := by
  simp only [step, fetch, hwire, fetchCommand, hdecode]

theorem step_of_brokenPhase {code : Byte} {p : List Byte} {rest : List BusEvent}
    (hwire : s.wire = .brokenPhase code p :: rest) : step s = .next (ctrlBroken code p { s with wire := rest }) := by
  simp only [step, fetch, hwire]

theorem step_of_resetPulse {rest : List BusEvent} (hwire : s.wire = .resetPulse :: rest) :
    step s = .next (ctrlLost { s with wire := rest }) := by
  simp only [step, fetch, hwire]

theorem step_of_brokenFlush {rest : List BusEvent} (hwire : s.wire = .brokenFlush :: rest) :
    step s = .next (ctrlHalfFlushed { s with wire := rest }) := by
  simp only [step, fetch, hwire]

theorem step_of_brokenProgram {rest : List BusEvent} (hwire : s.wire = .brokenProgram :: rest) :
    step s = .next (ctrlHalfProgrammed { s with wire := rest }) := by
  simp only [step, fetch, hwire]

theorem step_of_wrappedColumns {rest : List BusEvent} (hwire : s.wire = .wrappedColumns :: rest) :
    step s = .next (ctrlBarColumns { s with wire := rest }) := by
  simp only [step, fetch, hwire]

theorem step_of_wrappedRows {rest : List BusEvent} (hwire : s.wire = .wrappedRows :: rest) :
    step s = .next (ctrlBarRows { s with wire := rest }) := by
  simp only [step, fetch, hwire]

theorem step_of_request {i : Instr} {w : ReqWord} {rest : List ReqWord} (hwire : s.wire = []) (hport : s.port = w :: rest)
    (hdecode : decode (.request w) = .ok i) : step s = exec i { s with port := rest } := by
  simp only [step, fetch, hwire, hport, fetchRequest, hdecode]

theorem step_of_illegal {w : ReqWord} {rest : List ReqWord} {r : Reject} (hwire : s.wire = []) (hport : s.port = w :: rest)
    (hdecode : decode (.request w) = .error r) :
    step s = .next (takeError (.illegalRequest (fieldOp w)) { s with port := rest }) := by
  simp only [step, fetch, hwire, hport, fetchRequest, hdecode]

theorem step_of_idle (hwire : s.wire = []) (hport : s.port = []) : step s = .next s := by
  simp only [step, fetch, hwire, hport]

end Step

/-- Settles O4: the opcode decodes to nothing, and the error is a recorded one. -/
theorem unassignedOpcodeRaises : Obligations.UnassignedOpcodeRaises := by
  intro s w rest hwire hport hunassigned
  rw [step_of_illegal hwire hport (decode_request_of_unassigned hunassigned), takeError_eq_raisedIn _ rfl]

/-- Settles O5, one lemma for each place an instruction can come from. -/
theorem stepRunsDecoded : Obligations.StepRunsDecoded :=
  ⟨fun _ _ _ _ _ => step_of_command, fun _ _ _ _ => step_of_request, fun _ => step_of_idle⟩

/-- A request's form is a word. -/
theorem encode_of_request {i : Instr} {op : Op} (h : requestOp i = some op) : ∃ w, encode i = .request w := by
  cases i <;> cases h <;> exact ⟨_, rfl⟩

/-- A command's form is a code with its payload. -/
theorem encode_of_command {i : Instr} (h : requestOp i = none) : ∃ code p, encode i = .command code p := by
  cases i <;> cases h <;> exact ⟨_, _, rfl⟩

/-- Settles O6: the form decodes to the instruction (O1) and stands where the step looks first. -/
theorem placedFormRuns : Obligations.PlacedFormRuns := by
  intro s i hwf
  have hdecode := decodeOfEncode i hwf
  cases hop : requestOp i with
  | some op =>
    obtain ⟨w, hform⟩ := encode_of_request hop
    rw [hform] at hdecode ⊢
    exact ⟨{ s with wire := [] }, step_of_request rfl rfl hdecode, fun h => absurd h (Option.some_ne_none op), fun _ => rfl⟩
  | none =>
    obtain ⟨code, p, hform⟩ := encode_of_command hop
    rw [hform] at hdecode ⊢
    exact ⟨s, step_of_command rfl hdecode, fun _ => rfl, fun h => absurd rfl h⟩

/-- Settles O19: the codes are the table's by definition. -/
theorem causeCodes : Obligations.CauseCodes :=
  ⟨fun _ _ => ⟨rfl, rfl, rfl⟩, fun _ => rfl, rfl, rfl, fun _ _ => rfl, fun _ _ => rfl, fun _ => rfl, fun _ _ => rfl,
    fun _ => rfl, fun _ _ => rfl⟩

end Sys2Proof.Machine

/-! ### What the statements of a request leave (10_state.md R22, R30, 20_memory.md R69)

Drawing funnels through SETPIX and sending through phases, so what a request other than INIT and DEINIT leaves of the
state is one relation, kept by a pixel write and by a phase and closed under sequencing. -/

namespace Sys2Proof.Machine

/-- `t` differs from `s` only in what drawing and sending touch: the framebuffer has kept its size and its canonical form,
the trace and the wire have only grown, and `CS` was left alone or deasserted. -/
structure BodyKeeps (s t : State) : Prop where
  frame : t = { s with
    dc := t.dc, cs := t.cs, fb := t.fb, trace := t.trace, wire := t.wire
    env := { s.env with transmit := t.env.transmit } }
  size : t.fb.map Memory.size = s.fb.map Memory.size
  wf : fbWf s = true → fbWf t = true
  cs : t.cs = s.cs ∨ t.cs = .deasserted
  trace : s.trace <+: t.trace
  wire : s.wire <+: t.wire

namespace BodyKeeps

variable {s t : State} (h : BodyKeeps s t)

theorem refl (s : State) : BodyKeeps s s :=
  ⟨rfl, rfl, id, .inl rfl, List.prefix_refl _, List.prefix_refl _⟩

include h

theorem life : t.life = s.life := by rw [h.frame]
theorem resX : t.resX = s.resX := by rw [h.frame]
theorem resY : t.resY = s.resY := by rw [h.frame]
theorem pw : t.pw = s.pw := by rw [h.frame]
theorem bsz : t.bsz = s.bsz := by rw [h.frame]
theorem bound : t.bound = s.bound := by rw [h.frame]
theorem pincfg : t.pincfg = s.pincfg := by rw [h.frame]
theorem rst : t.rst = s.rst := by rw [h.frame]
theorem seqPc : t.seqPc = s.seqPc := by rw [h.frame]
theorem fault : t.fault = s.fault := by rw [h.frame]
theorem port : t.port = s.port := by rw [h.frame]
theorem ctrl : t.ctrl = s.ctrl := by rw [h.frame]
theorem streams : t.env.streams = s.env.streams := by rw [h.frame]
theorem fonts : t.env.fonts = s.env.fonts := by rw [h.frame]

theorem fbSize_eq : fbSize t = fbSize s := by
  rw [fbSize, h.size, fbSize]

theorem fb_eq_none (hnone : s.fb = none) : t.fb = none := by
  have hsize := h.size
  rwa [hnone, Option.map_none, Option.map_eq_none_iff] at hsize

end BodyKeeps

theorem BodyKeeps.trans (s t u : State) (h : BodyKeeps s t) (k : BodyKeeps t u) : BodyKeeps s u where
  frame := by rw [k.frame, h.frame]
  size := k.size.trans h.size
  wf hs := k.wf (h.wf hs)
  cs := k.cs.elim (fun hk => h.cs.imp hk.trans hk.trans) .inr
  trace := h.trace.trans k.trace
  wire := h.wire.trans k.wire

/-- The size and the canonical form ask for the framebuffer alone. -/
theorem fbWf_congr {s t : State} (h : t.fb = s.fb) : fbWf t = fbWf s := by
  rw [fbWf, fbWf, h]

theorem BodyKeeps.of_sendOnly {s t : State} (h : SendOnly s t) : BodyKeeps s t := by
  obtain ⟨hframe, htrace, hwire, hcs⟩ := h
  have hfb : t.fb = s.fb := by rw [hframe]
  refine ⟨?_, congrArg _ hfb, fun hwf => (fbWf_congr hfb).trans hwf, hcs, htrace, hwire⟩
  rw [hfb]
  exact hframe

theorem Res.Ends.bodyKeeps {α : Type} {r : Res α} {s : State} (h : r.Ends (SendOnly s)) : r.Ends (BodyKeeps s) :=
  h.imp fun _ => BodyKeeps.of_sendOnly

/-- A part that answers on the port ends where it ended. -/
theorem Res.Ends.answer {α : Type} {P : State → Prop} {r : Res α} (h : r.Ends P) (v : α → Result) : (r.answer v).Ends P := by
  cases r with
  | done a s => exact h
  | raised e s => exact h
  | stopped f => trivial

/-- A byte that exists is written in a buffer of the same size and form. -/
theorem bodyKeeps_writeFb {s : State} {i : Nat} (v : Byte) (hi : i < fbSize s) : BodyKeeps s (writeFb s i v) where
  frame := rfl
  size := by rw [writeFb_fb, Option.map_map]; rfl
  wf hwf := writeFb_wf v hwf hi
  cs := .inl rfl
  trace := List.prefix_refl _
  wire := List.prefix_refl _

theorem setPixel_keeps (x y : Nat) (c : Color) (s : State) : (setPixel x y c s).Ends (BodyKeeps s) := by
  obtain ⟨b, -, hb, h⟩ | ⟨-, h⟩ | ⟨-, -, h⟩ := setPixel_cases x y c s <;> rw [h]
  · exact bodyKeeps_writeFb _ ((readFb_isSome_iff ..).mp (Option.isSome_of_eq_some hb))
  · exact BodyKeeps.refl s
  · trivial

theorem getPixel_keeps (x y : Nat) (s : State) : (getPixel x y s).Ends (BodyKeeps s) := by
  unfold getPixel
  split
  · split
    · exact BodyKeeps.refl s
    · trivial
  · exact BodyKeeps.refl s

theorem fillFb_keeps (c : Color) (s : State) : (fillFb c s).Ends (BodyKeeps s) := by
  obtain ⟨hsize, h⟩ | ⟨-, h⟩ := fillFb_cases c s <;> rw [h]
  · refine ⟨rfl, ?_, fun hwf => ?_, .inl rfl, List.prefix_refl _, List.prefix_refl _⟩
    · rw [Option.map_map]; rfl
    · cases hm : s.fb with
      | none => simp only [fbWf, Option.map_none]
      | some m =>
        rw [fbSize_eq hm] at hsize
        rw [fbWf, hm] at hwf
        exact Memory.fill_wf _ hwf hsize
  · trivial

/-! A loop of pixel writes keeps what each of them keeps. -/

theorem lines_keep {α : Type} {f : α → State → Res Unit} (hf : ∀ a s, (f a s).Ends (BodyKeeps s)) (as : List α) (s : State) :
    (forEach f as s).Ends (BodyKeeps s) :=
  forEach_ends BodyKeeps BodyKeeps.refl BodyKeeps.trans hf as s

theorem blit_keeps (color : Env → Ref → Nat → Except Err Color) (x y : Nat) (r : Ref) (w h : Nat) (s : State) :
    (blit color x y r w h s).Ends (BodyKeeps s) := by
  refine lines_keep (fun k t => ?_) _ s
  split
  · exact setPixel_keeps ..
  · exact BodyKeeps.refl t

theorem drawChar_keeps (x y : Nat) (ch : Byte) (f : Ref) (s : State) : (drawChar x y ch f s).Ends (BodyKeeps s) := by
  unfold drawChar
  split
  · exact (blit_keeps ..).chain BodyKeeps BodyKeeps.trans fun _ t => BodyKeeps.refl t
  · exact BodyKeeps.refl s

theorem drawString_keeps (y : Nat) (f : Ref) (chs : List Byte) (cur : Nat) (s : State) :
    (drawString y f chs cur s).Ends (BodyKeeps s) := by
  induction chs generalizing cur s with
  | nil => exact BodyKeeps.refl s
  | cons ch rest ih =>
    unfold drawString
    split
    · exact BodyKeeps.refl s
    · split
      · exact BodyKeeps.refl s
      · exact (drawChar_keeps ..).chain BodyKeeps BodyKeeps.trans fun _ t => ih _ t

/-! The program of INIT (41_reset_init.md R130, R133). -/

theorem runEntry_keeps (e : Entry) (s : State) : (runEntry e s).Ends (BodyKeeps s) := by
  cases e with
  | send c p => exact (sendBytes_ends ..).bodyKeeps
  | fullColumns => exact (sendColumns_ends ..).bodyKeeps
  | fullRows => exact (sendRows_ends ..).bodyKeeps
  | clear => exact fillFb_keeps ..
  | writeBuffer => exact (sendFb_ends s).bodyKeeps

/-- A relation of two states stands when both are given the same `SEQ_PC`. -/
theorem BodyKeeps.withSeqPc {s t : State} (h : BodyKeeps s t) (n : BitVec 5) :
    BodyKeeps { s with seqPc := n } { t with seqPc := n } := by
  refine ⟨?_, h.size, h.wf, h.cs, h.trace, h.wire⟩
  rw [h.frame]

/-- The entries left end with `SEQ_PC` past them all, or at the one that failed, or stop the machine. -/
theorem runEntries_cases (es : List Entry) (s : State) :
    (∃ t, runEntries es s = .done () t ∧ BodyKeeps { s with seqPc := s.seqPc + BitVec.ofNat 5 es.length } t) ∨
    (∃ e t k, k < es.length ∧ runEntries es s = .raised e t ∧
      BodyKeeps { s with seqPc := s.seqPc + BitVec.ofNat 5 k } t) ∨
    ∃ f, runEntries es s = .stopped f := by
  induction es generalizing s with
  | nil => exact .inl ⟨s, rfl, by simpa using BodyKeeps.refl s⟩
  | cons e es ih =>
    have hentry := runEntry_keeps e s
    rw [runEntries]
    cases hrun : runEntry e s with
    | done a t =>
      rw [hrun] at hentry
      have hadvance (k : Nat) : BodyKeeps { s with seqPc := s.seqPc + BitVec.ofNat 5 (k + 1) }
          { advance t with seqPc := (advance t).seqPc + BitVec.ofNat 5 k } := by
        have hpc : (advance t).seqPc + BitVec.ofNat 5 k = s.seqPc + BitVec.ofNat 5 (k + 1) := by
          rw [BitVec.ofNat_add, advance, hentry.seqPc, BitVec.add_assoc, BitVec.add_comm (BitVec.ofNat 5 k)]
          rfl
        rw [hpc]
        exact hentry.withSeqPc _
      obtain ⟨u, h, hu⟩ | ⟨e', u, k, hk, h, hu⟩ | ⟨f, h⟩ := ih (advance t)
      · exact .inl ⟨u, h, BodyKeeps.trans _ _ _ (hadvance _) hu⟩
      · exact .inr (.inl ⟨e', u, k + 1, Nat.succ_lt_succ hk, h, BodyKeeps.trans _ _ _ (hadvance k) hu⟩)
      · exact .inr (.inr ⟨f, h⟩)
    | raised e' t =>
      rw [hrun] at hentry
      exact .inr (.inl ⟨e', t, 0, Nat.succ_pos _, rfl, by simpa [Res.Ends] using hentry⟩)
    | stopped f => exact .inr (.inr ⟨f, rfl⟩)

/-- The part of INIT after its acquisitions: the whole program, or a failing entry and the release, or a stop. -/
theorem construct_cases (s : State) :
    (∃ t, construct s = .done .ok { t with life := .constructed } ∧
      BodyKeeps { resetPulse (configurePins s) with seqPc := 25 } t) ∨
    (∃ e t k, k < 25 ∧ construct s = .raised e (abandon t) ∧
      BodyKeeps { resetPulse (configurePins s) with seqPc := BitVec.ofNat 5 k } t) ∨
    ∃ f, construct s = .stopped f := by
  unfold construct runProgram
  obtain ⟨t, h, ht⟩ | ⟨e, t, k, hk, h, ht⟩ | ⟨f, h⟩ :=
    runEntries_cases initProgram { resetPulse (configurePins s) with seqPc := 0 } <;> rw [h]
  · exact .inl ⟨t, rfl, ht⟩
  · exact .inr (.inl ⟨e, t, k, hk, rfl, by simpa using ht⟩)
  · exact .inr (.inr ⟨f, rfl⟩)

/-! INIT's acquisitions, by the environment's answers (41_reset_init.md R125 to R127). -/

theorem acquire_of_allocate_fail {s : State} (x y : Coord) (h : s.env.allocate.headD .ok = .fail) : acquire x y s =
    .raised .allocationFailure { s with env := { s.env with allocate := s.env.allocate.tail } } := by
  simp only [acquire, askAllocate, h]

theorem acquire_of_attach_fail {s : State} (x y : Coord) (hallocate : allocateOk s)
    (h : s.env.attach.headD .ok = .fail) : acquire x y s = .raised .busAttachFailure
      { s with env := { s.env with allocate := s.env.allocate.tail, attach := s.env.attach.tail } } := by
  simp only [acquire, askAllocate, askAttach, hallocate, h]

theorem acquire_of_ok {s : State} (x y : Coord) (hallocate : allocateOk s) (hattach : attachOk s) : acquire x y s =
    construct (latch x y
      { s with env := { s.env with allocate := s.env.allocate.tail, attach := s.env.attach.tail } }) := by
  simp only [acquire, askAllocate, askAttach, hallocate, hattach]

/-- INIT's acquisitions fail with nothing changed but the answers used, or the construction begins. -/
theorem acquire_cases (x y : Coord) (s : State) :
    ∃ u, (∃ allocate attach, u = { s with env := { s.env with allocate := allocate, attach := attach } }) ∧
      ((∃ e, acquire x y s = .raised e u) ∨ acquire x y s = construct (latch x y u)) := by
  cases hallocate : s.env.allocate.headD .ok with
  | fail => exact ⟨_, ⟨_, s.env.attach, rfl⟩, .inl ⟨_, acquire_of_allocate_fail x y hallocate⟩⟩
  | ok =>
    cases hattach : s.env.attach.headD .ok with
    | fail => exact ⟨_, ⟨_, _, rfl⟩, .inl ⟨_, acquire_of_attach_fail x y hallocate hattach⟩⟩
    | ok => exact ⟨_, ⟨_, _, rfl⟩, .inr (acquire_of_ok x y hallocate hattach)⟩

/-- DEINIT's body: the sleep command and the teardown, whatever the command's answer. -/
theorem deinitBody_cases (s : State) :
    (∃ v t, deinitBody s = .done v (tearDown t) ∧ SendOnly s t) ∨
    (∃ e t, deinitBody s = .raised e (tearDown t) ∧ SendOnly s t) ∨ ∃ f, deinitBody s = .stopped f := by
  have hsend : (sendCmd .sleepOn [] s).Ends (SendOnly s) := sendBytes_ends ..
  unfold deinitBody
  cases h : sendCmd .sleepOn [] s with
  | done a t => exact .inl ⟨.ok, t, rfl, by rwa [h] at hsend⟩
  | raised e t => exact .inr (.inl ⟨e, t, rfl, by rwa [h] at hsend⟩)
  | stopped f => exact .inr (.inr ⟨f, rfl⟩)

/-! The requests by their bodies. -/

/-- Every request but INIT, DEINIT and HWRESET is its lifecycle check and a body of drawing or sending. -/
theorem exec_body {i : Instr} {op : Op} (hop : requestOp i = some op) (hinit : op ≠ .init) (hdeinit : op ≠ .deinit)
    (hreset : op ≠ .hwreset) : ∃ body, (∀ s, exec i s = request op body s) ∧ ∀ s, (body s).Ends (BodyKeeps s) := by
  cases i <;> cases hop
  case init => exact absurd rfl hinit
  case deinit => exact absurd rfl hdeinit
  case hwreset => exact absurd rfl hreset
  case send => exact ⟨_, fun _ => rfl, fun _ => (sendFrom_ends ..).bodyKeeps.answer _⟩
  case colwin => exact ⟨_, fun _ => rfl, fun _ => (sendColumns_ends ..).bodyKeeps.answer _⟩
  case rowwin => exact ⟨_, fun _ => rfl, fun _ => (sendRows_ends ..).bodyKeeps.answer _⟩
  case setpix => exact ⟨_, fun _ => rfl, fun _ => (setPixel_keeps ..).answer _⟩
  case getpix => exact ⟨_, fun _ => rfl, fun _ => (getPixel_keeps ..).answer _⟩
  case fill => exact ⟨_, fun _ => rfl, fun _ => (fillFb_keeps ..).answer _⟩
  case flush => exact ⟨_, fun _ => rfl, fun _ => (flushFb_ends _).bodyKeeps.answer _⟩
  case hline => exact ⟨_, fun _ => rfl, fun _ => (lines_keep (fun _ => setPixel_keeps _ _ _) ..).answer _⟩
  case vline => exact ⟨_, fun _ => rfl, fun _ => (lines_keep (fun _ => setPixel_keeps _ _ _) ..).answer _⟩
  case bmp4 => exact ⟨_, fun _ => rfl, fun _ => (blit_keeps ..).answer _⟩
  case bmp8 => exact ⟨_, fun _ => rfl, fun _ => (blit_keeps ..).answer _⟩
  case char => exact ⟨_, fun _ => rfl, fun _ => (drawChar_keeps ..).answer _⟩
  case str => exact ⟨_, fun _ => rfl, fun _ => (drawString_keeps ..).answer _⟩
  case graytab => exact ⟨_, fun _ => rfl, fun _ => (sendFrom_ends ..).bodyKeeps.answer _⟩
  case modenorm | modeinv | modeon | modeoff | sleep | wake | graydef | setcon | setbri =>
    exact ⟨_, fun _ => rfl, fun _ => (sendBytes_ends ..).bodyKeeps.answer _⟩

theorem requestOp_eq_deinit {i : Instr} (h : requestOp i = some .deinit) : i = .deinit := by
  cases i <;> cases h
  rfl

theorem requestOp_eq_hwreset {i : Instr} (h : requestOp i = some .hwreset) : i = .hwreset := by
  cases i <;> cases h
  rfl

theorem exec_deinit (s : State) : exec .deinit s = request .deinit deinitBody s := rfl

theorem exec_hwreset (s : State) : exec .hwreset s = request .hwreset (fun t => .done .ok (resetPulse t)) s := rfl

end Sys2Proof.Machine

/-! ### What a request and a command leave, and the invariants (10_state.md R28 to R31, R43, R48, 60_exceptions.md R250, R252)

The states a request can end in are listed once, and so is what CTRL's part of a step leaves; every invariant is then one
case for each. -/

namespace Sys2Proof.Machine

/-- The state with answers to `Allocate` and `Attach` used. -/
def answersUsed (allocate attach : List Answer) (s : State) : State :=
  { s with env := { s.env with allocate := allocate, attach := attach } }

/-- INIT's state when the program reaches entry `k`, but for what the program itself has sent (41_reset_init.md R125). -/
def programState (x y : Coord) (k : Nat) (s : State) : State :=
  { resetPulse (configurePins (latch x y s)) with seqPc := BitVec.ofNat 5 k }

/-- The states in which a request can end, its outcome and `FAULT` aside. -/
inductive RequestEnds (s : State) : Op → State → Prop
  /-- it has drawn, sent, or done nothing -/
  | body {op : Op} {t : State} (h : BodyKeeps s t) : RequestEnds s op t
  | pulsed : RequestEnds s .hwreset (resetPulse s)
  /-- INIT got no further than its acquisitions -/
  | unacquired (allocate attach : List Answer) : RequestEnds s .init (answersUsed allocate attach s)
  | constructed {x y : Coord} {allocate attach : List Answer} {t : State} (hlife : s.life ≠ .constructed)
      (hok : geometryOk x y = true) (h : BodyKeeps (programState x y 25 (answersUsed allocate attach s)) t) :
      RequestEnds s .init { t with life := .constructed }
  | abandoned {x y : Coord} {allocate attach : List Answer} {k : Nat} {t : State} (hlife : s.life ≠ .constructed)
      (hk : k < 25) (h : BodyKeeps (programState x y k (answersUsed allocate attach s)) t) :
      RequestEnds s .init (abandon t)
  | tornDown {t : State} (hlife : s.life = .constructed) (h : SendOnly s t) : RequestEnds s .deinit (tearDown t)

theorem init_ends {s : State} {x y : Coord} (hlife : s.life ≠ .constructed) (hok : geometryOk x y = true) :
    (acquire x y s).Ends (RequestEnds s .init) := by
  obtain ⟨u, ⟨allocate, attach, rfl⟩, ⟨e, h⟩ | h⟩ := acquire_cases x y s <;> rw [h]
  · exact .unacquired allocate attach
  · obtain ⟨t, h, ht⟩ | ⟨e, t, k, hk, h, ht⟩ | ⟨f, h⟩ := construct_cases (latch x y (answersUsed allocate attach s)) <;>
      rw [answersUsed] at h <;> rw [h]
    · exact .constructed hlife hok ht
    · exact .abandoned hlife hk ht
    · trivial

theorem deinit_ends {s : State} (hlife : s.life = .constructed) : (deinitBody s).Ends (RequestEnds s .deinit) := by
  obtain ⟨v, t, h, ht⟩ | ⟨e, t, h, ht⟩ | ⟨f, h⟩ := deinitBody_cases s <;> rw [h]
  · exact .tornDown hlife ht
  · exact .tornDown hlife ht
  · trivial

/-- A request with the common check ends where its body does, or where it began. -/
theorem request_ends {P : State → Prop} {op : Op} {body : State → Res Result} {s : State} (hs : P s)
    (hbody : s.life = .constructed → (body s).Ends P) :
    ∃ r : Res Result, request op body s = finish r ∧ r.Ends P := by
  by_cases hlife : s.life = .constructed
  · exact ⟨_, request_constructed hlife, hbody hlife⟩
  · exact ⟨.raised (.lifecycleViolation op) s, request_violation hlife, hs⟩

/-- What a request can leave, said once. -/
theorem exec_request_ends {i : Instr} {op : Op} (hop : requestOp i = some op) (s : State) :
    ∃ r, exec i s = finish r ∧ r.Ends (RequestEnds s op) := by
  have hnothing : RequestEnds s op s := .body (BodyKeeps.refl s)
  by_cases hinit : op = .init
  · subst hinit
    obtain ⟨tr, p, x, y, rfl⟩ := requestOp_eq_init hop
    by_cases hlife : s.life = .constructed
    · exact ⟨.raised (.lifecycleViolation .init) s, exec_init_of_constructed tr p x y hlife, hnothing⟩
    · by_cases hok : geometryOk x y = true
      · exact ⟨_, exec_init_of_geometryOk tr p hlife hok, init_ends hlife hok⟩
      · exact ⟨.raised (.geometryRefused x y) s, exec_init_of_refused tr p hlife hok, hnothing⟩
  by_cases hdeinit : op = .deinit
  · subst hdeinit
    obtain rfl := requestOp_eq_deinit hop
    exact request_ends hnothing deinit_ends
  by_cases hreset : op = .hwreset
  · subst hreset
    obtain rfl := requestOp_eq_hwreset hop
    exact request_ends (body := fun t => .done .ok (resetPulse t)) hnothing fun _ => RequestEnds.pulsed
  obtain ⟨body, hexec, hbody⟩ := exec_body hop hinit hdeinit hreset
  rw [hexec]
  exact request_ends hnothing fun _ => (hbody s).imp fun _ => .body

/-- `t` is `u` with the outcome of a request and what its end makes of `FAULT`. -/
structure Finished (u t : State) : Prop where
  frame : t = { u with result := t.result, fault := t.fault }
  fault : ∀ e, u.fault = some e → t.fault = some e

/-- A state that a request answers is, up to its outcome, one of those it can end in. -/
theorem exec_request_next {i : Instr} {op : Op} {s t : State} (hop : requestOp i = some op) (hnext : exec i s = .next t) :
    ∃ u, RequestEnds s op u ∧ Finished u t := by
  obtain ⟨r, hexec, hends⟩ := exec_request_ends hop s
  rw [hexec] at hnext
  obtain ⟨v, u, rfl, rfl⟩ | ⟨e, u, rfl, rfl⟩ := finish_next hnext
  · exact ⟨u, hends, rfl, fun _ => id⟩
  · refine ⟨u, hends, rfl, fun f hf => ?_⟩
    rw [takeError_fault, hf, faultAfter]

/-! CTRL's part of a step (10_state.md R33, R41). -/

/-- `t` differs from `s` in the controller and the counter of free values; its memory has kept its canonical form. -/
structure CtrlOnly (s t : State) : Prop where
  frame : t = { s with ctrl := t.ctrl, freeCount := t.freeCount }
  gram : gramWf s = true → gramWf t = true

theorem ctrlUnknown_ctrlOnly (k : Stands) (s : State) : CtrlOnly s (ctrlUnknown k s) :=
  ⟨rfl, fun _ => ctrlUnknown_gramWf k s⟩

/-- A command with a check of its payload length: the described command or the undescribed one. -/
theorem ctrlOnly_ite {c : Prop} [Decidable c] {s t u : State} (ht : CtrlOnly s t) (hu : CtrlOnly s u) :
    ∃ v, (if c then .next t else .next u : Host.Outcome State Fault Refusal) = .next v ∧ CtrlOnly s v := by
  split
  · exact ⟨t, rfl, ht⟩
  · exact ⟨u, rfl, hu⟩

/-- A command always completes, and changes CTRL only. -/
theorem exec_command {i : Instr} (hop : requestOp i = none) (s : State) : ∃ t, exec i s = .next t ∧ CtrlOnly s t := by
  cases i <;> cases hop
  case cmdEnh1 | cmdEnh2 | cmdRemap | cmdGrayTable => exact ctrlOnly_ite ⟨rfl, id⟩ (ctrlUnknown_ctrlOnly ..)
  case cmdWriteRam => exact ctrlOnly_ite (ctrlUnknown_ctrlOnly ..) ⟨rfl, ctrlStore_gramWf⟩
  case cmdSleepOff => exact ⟨_, rfl, rfl, ctrlWake_gramWf⟩
  all_goals exact ⟨_, rfl, rfl, id⟩

theorem exec_command_next {i : Instr} {s t : State} (hop : requestOp i = none) (hnext : exec i s = .next t) :
    CtrlOnly s t := by
  obtain ⟨u, hexec, hu⟩ := exec_command hop s
  cases hexec.symm.trans hnext
  exact hu

/-- What CTRL decodes is a command. -/
theorem requestOp_of_decode_command {code : Byte} {p : List Byte} {i : Instr} (h : decode (.command code p) = .ok i) :
    requestOp i = none := by
  obtain ⟨-, hform⟩ := encodeOfDecode.1 code p i h
  refine Option.eq_none_iff_forall_ne_some.mpr fun op hop => ?_
  obtain ⟨w, hword⟩ := encode_of_request hop
  cases hword.symm.trans hform

/-- With anything on the wire the step takes it and changes CTRL only. -/
theorem step_of_wire {s : State} {b : BusEvent} {rest : List BusEvent} (hwire : s.wire = b :: rest) :
    ∃ t, step s = .next t ∧ CtrlOnly { s with wire := rest } t := by
  cases b
  case command code p =>
    cases hdecode : decode (.command code p) with
    | ok i =>
      rw [step_of_command hwire hdecode]
      exact exec_command (requestOp_of_decode_command hdecode) _
    | error r => exact ⟨_, step_of_undescribed hwire hdecode, ctrlUnknown_ctrlOnly ..⟩
  case brokenPhase => exact ⟨_, step_of_brokenPhase hwire, ctrlUnknown_ctrlOnly ..⟩
  case resetPulse => exact ⟨_, step_of_resetPulse hwire, ctrlUnknown_ctrlOnly ..⟩
  case brokenFlush => exact ⟨_, step_of_brokenFlush hwire, ctrlUnknown_ctrlOnly ..⟩
  case brokenProgram => exact ⟨_, step_of_brokenProgram hwire, ctrlUnknown_ctrlOnly ..⟩
  case wrappedColumns => exact ⟨_, step_of_wrappedColumns hwire, rfl, id⟩
  case wrappedRows => exact ⟨_, step_of_wrappedRows hwire, rfl, id⟩

theorem requestOp_requestOf (w : ReqWord) (o : Op) : requestOp (requestOf w o) = some o := by
  cases o <;> rfl

/-- What a step can do: CTRL moves, PPFB runs a request or refuses its word, or nothing happens. -/
theorem step_next {s t : State} (hnext : step s = .next t) :
    (∃ rest, CtrlOnly { s with wire := rest } t) ∨
    (∃ rest op u, RequestEnds { s with port := rest } op u ∧ Finished u t) ∨ t = s := by
  by_cases hwire : s.wire = []
  · cases hport : s.port with
    | nil =>
      cases (step_of_idle hwire hport).symm.trans hnext
      exact .inr (.inr rfl)
    | cons w rest =>
      cases hdecode : decode (.request w) with
      | ok i =>
        obtain ⟨o, -, rfl⟩ := decode_request_ok hdecode
        rw [step_of_request hwire hport hdecode] at hnext
        obtain ⟨u, hends, hfinished⟩ := exec_request_next (requestOp_requestOf w o) hnext
        exact .inr (.inl ⟨rest, o, u, hends, hfinished⟩)
      | error r =>
        cases (step_of_illegal hwire hport hdecode).symm.trans hnext
        refine .inr (.inl ⟨rest, .init, _, .body (BodyKeeps.refl _), rfl, fun e he => ?_⟩)
        rw [takeError_fault, he, faultAfter]
  · obtain ⟨b, rest, hwire⟩ := List.exists_cons_of_ne_nil hwire
    obtain ⟨u, hstep, hu⟩ := step_of_wire hwire
    cases hstep.symm.trans hnext
    exact .inl ⟨rest, hu⟩

/-! ### What holds of every request -/

/-- What every request keeps, INIT and DEINIT too: it only appends to the trace and the wire, and leaves the controller, the
port, the sources and, but for its outcome, `FAULT`. -/
structure Appends (s t : State) : Prop where
  ctrl : t.ctrl = s.ctrl
  port : t.port = s.port
  fault : t.fault = s.fault
  streams : t.env.streams = s.env.streams
  fonts : t.env.fonts = s.env.fonts
  trace : s.trace <+: t.trace
  wire : s.wire <+: t.wire

theorem BodyKeeps.appends {s t : State} (h : BodyKeeps s t) : Appends s t :=
  ⟨h.ctrl, h.port, h.fault, h.streams, h.fonts, h.trace, h.wire⟩

theorem Appends.trans {s t u : State} (h : Appends s t) (k : Appends t u) : Appends s u where
  ctrl := k.ctrl.trans h.ctrl
  port := k.port.trans h.port
  fault := k.fault.trans h.fault
  streams := k.streams.trans h.streams
  fonts := k.fonts.trans h.fonts
  trace := h.trace.trans k.trace
  wire := h.wire.trans k.wire

theorem resetPulse_appends (s : State) : Appends s (resetPulse s) :=
  ⟨rfl, rfl, rfl, rfl, rfl, ⟨_, rfl⟩, ⟨_, rfl⟩⟩

theorem programState_appends (x y : Coord) (k : Nat) (allocate attach : List Answer) (s : State) :
    Appends s (programState x y k (answersUsed allocate attach s)) := by
  refine ⟨rfl, rfl, rfl, rfl, rfl, ⟨.dircfg :: resetEvents, ?_⟩, ⟨_, rfl⟩⟩
  simp [programState, answersUsed]

theorem RequestEnds.appends {s u : State} {op : Op} (h : RequestEnds s op u) : Appends s u := by
  cases h with
  | body h => exact h.appends
  | pulsed => exact resetPulse_appends s
  | unacquired => exact ⟨rfl, rfl, rfl, rfl, rfl, List.prefix_refl _, List.prefix_refl _⟩
  | constructed _ _ h =>
    obtain ⟨h₁, h₂, h₃, h₄, h₅, h₆, h₇⟩ := (programState_appends ..).trans h.appends
    exact ⟨h₁, h₂, h₃, h₄, h₅, h₆, h₇⟩
  | @abandoned _ _ _ _ _ t _ _ h =>
    have habandon : Appends t (abandon t) := ⟨rfl, rfl, rfl, rfl, rfl, List.prefix_refl _, ⟨_, rfl⟩⟩
    exact ((programState_appends ..).trans h.appends).trans habandon
  | @tornDown t _ h =>
    have htearDown : Appends t (tearDown t) := ⟨rfl, rfl, rfl, rfl, rfl, List.prefix_refl _, List.prefix_refl _⟩
    exact (BodyKeeps.of_sendOnly h).appends.trans htearDown

/-- Settles O10: CTRL does not reach `FAULT`, a run leaves it, and its end keeps a first record. -/
theorem faultRecordStays : Obligations.FaultRecordStays := by
  intro s t e hfault hnext
  obtain ⟨rest, h⟩ | ⟨rest, op, u, hends, hfinished⟩ | rfl := step_next hnext
  · rw [h.frame]
    exact hfault
  · exact hfinished.fault e (hends.appends.fault.trans hfault)
  · exact hfault

/-- Settles O11, from what CTRL and every request keep. -/
theorem traceOnlyGrows : Obligations.TraceOnlyGrows := by
  intro s t hnext
  obtain ⟨rest, h⟩ | ⟨rest, op, u, hends, hfinished⟩ | rfl := step_next hnext
  · rw [h.frame]
    exact ⟨List.prefix_refl _, rfl, rfl⟩
  · rw [hfinished.frame]
    exact ⟨hends.appends.trace, hends.appends.streams, hends.appends.fonts⟩
  · exact ⟨List.prefix_refl _, rfl, rfl⟩

/-- Settles O14: a request appends to the wire and leaves the controller and the port. -/
theorem requestsLeaveController : Obligations.RequestsLeaveController := by
  intro i s t hop hnext
  obtain ⟨op, hop⟩ := Option.ne_none_iff_exists'.mp hop
  obtain ⟨u, hends, hfinished⟩ := exec_request_next hop hnext
  rw [hfinished.frame]
  exact ⟨hends.appends.ctrl, hends.appends.port, hends.appends.wire⟩

/-- Settles O15. -/
theorem commandsLeaveBlock : Obligations.CommandsLeaveBlock :=
  fun _ _ _ hop hnext => (exec_command_next hop hnext).frame

/-- Settles O12: the lifecycle moves where a construction completes and where DEINIT tears down; an abandoned
construction keeps the old one. -/
theorem lifecycleMoves : Obligations.LifecycleMoves := by
  intro i s t hnext hmoved
  cases hop : requestOp i with
  | none =>
    rw [(exec_command_next hop hnext).frame] at hmoved
    exact absurd rfl hmoved
  | some op =>
    obtain ⟨u, hends, hfinished⟩ := exec_request_next hop hnext
    have hlife : t.life = u.life := by rw [hfinished.frame]
    rw [hlife] at hmoved ⊢
    cases hends with
    | body h => exact absurd h.life.symm hmoved
    | pulsed | unacquired => exact absurd rfl hmoved
    | abandoned _ _ h => exact absurd h.life.symm hmoved
    | constructed hbefore =>
      obtain ⟨tr, p, x, y, rfl⟩ := requestOp_eq_init hop
      exact .inl ⟨tr, p, x, y, rfl, hbefore, rfl⟩
    | tornDown hbefore => exact .inr ⟨requestOp_eq_deinit hop, hbefore, rfl⟩

/-- Settles O13: a command changes CTRL only, a request other than INIT and DEINIT draws or sends, and HWRESET touches the
reset line alone of what is listed. -/
theorem geometryIsInitsAlone : Obligations.GeometryIsInitsAlone := by
  intro i s t hnext hinit hdeinit
  cases hop : requestOp i with
  | none =>
    rw [(exec_command_next hop hnext).frame]
    exact ⟨rfl, rfl, rfl, rfl, rfl, rfl, rfl, rfl, rfl, fun _ => rfl⟩
  | some op =>
    obtain ⟨u, hends, hfinished⟩ := exec_request_next hop hnext
    rw [hfinished.frame]
    cases hends with
    | body h => exact ⟨h.resX, h.resY, h.pw, h.bsz, h.life, h.bound, h.pincfg, h.seqPc, h.fbSize_eq, fun _ => h.rst⟩
    | pulsed =>
      exact ⟨rfl, rfl, rfl, rfl, rfl, rfl, rfl, rfl, rfl, fun h => absurd (requestOp_eq_hwreset hop) h⟩
    | unacquired | constructed | abandoned =>
      obtain ⟨tr, p, x, y, hi⟩ := requestOp_eq_init hop
      exact absurd hi (hinit tr p x y)
    | tornDown => exact absurd (requestOp_eq_deinit hop) hdeinit

/-! ### Coherence -/

/-- The geometry INIT accepts (00_scope.md R7). -/
theorem geometryOk_iff (x y : Coord) :
    geometryOk x y = true ↔ 1 ≤ x.toNat ∧ x.toNat ≤ 256 ∧ 1 ≤ y.toNat ∧ y.toNat ≤ 128 := by
  rw [← not_iff_not, not_geometryOk_iff]
  omega

/-- The geometry INIT accepts fits the registers that hold it and the buffer allocated for it. -/
theorem latch_geometryCoherent {x y : Coord} (s : State) (hok : geometryOk x y = true) :
    GeometryCoherent (latch x y s) := by
  obtain ⟨-, hx, -, hy⟩ := (geometryOk_iff x y).mp hok
  have hpw : packedWidth x ≤ 128 := by
    unfold packedWidth
    omega
  have hbsz : bufferSize x y ≤ 128 * 128 := Nat.mul_le_mul hpw hy
  have hbsz' : (BitVec.ofNat 32 (bufferSize x y)).toNat = bufferSize x y := by
    rw [BitVec.toNat_ofNat]
    omega
  refine ⟨hok, ?_, hbsz', congrArg some hbsz'.symm⟩
  rw [latch_pw, BitVec.toNat_ofNat, latch_resX]
  omega

/-- Drawing and sending do not touch the geometry. -/
theorem GeometryCoherent.of_bodyKeeps {s t : State} (hg : GeometryCoherent s) (h : BodyKeeps s t) : GeometryCoherent t := by
  rw [GeometryCoherent, h.resX, h.resY, h.pw, h.bsz, h.size]
  exact hg

theorem BodyKeeps.cs_deasserted {s t : State} (h : BodyKeeps s t) (hs : s.cs = .deasserted) : t.cs = .deasserted :=
  h.cs.elim (fun ht => ht.trans hs) id

theorem BodyKeeps.gramWf {s t : State} (h : BodyKeeps s t) (hs : gramWf s = true) : gramWf t = true := by
  rw [Machine.gramWf, h.ctrl]
  exact hs

theorem Coherent.of_bodyKeeps {s t : State} (hs : Coherent s) (h : BodyKeeps s t) : Coherent t := by
  obtain ⟨hconstructed, houtside, htorn, hpc, hcs, hfb, hgram⟩ := hs
  rw [Coherent, h.life, h.bound, h.pincfg, h.seqPc]
  refine ⟨fun hlife => ?_, fun hlife => ?_, htorn, hpc, h.cs_deasserted hcs, h.wf hfb, h.gramWf hgram⟩
  · obtain ⟨hbound, hpins, hpc, hg⟩ := hconstructed hlife
    exact ⟨hbound, hpins, hpc, hg.of_bodyKeeps h⟩
  · obtain ⟨hbound, hnone⟩ := houtside hlife
    exact ⟨hbound, h.fb_eq_none hnone⟩

/-- A completed construction is coherent: what was latched, the pins, a finished program. -/
theorem coherent_constructed {s t : State} {x y : Coord} (hs : Coherent s) (hok : geometryOk x y = true)
    (h : BodyKeeps (programState x y 25 s) t) : Coherent { t with life := .constructed } := by
  obtain ⟨-, -, -, -, hcs, -, hgram⟩ := hs
  have hpc : t.seqPc.toNat = 25 := congrArg BitVec.toNat h.seqPc
  have hg : GeometryCoherent t := GeometryCoherent.of_bodyKeeps (s := programState x y 25 s) (latch_geometryCoherent s hok) h
  exact ⟨fun _ => ⟨h.bound, h.pincfg, hpc, hg⟩, fun hlife => absurd rfl hlife, fun _ => h.pincfg, hpc.le,
    h.cs_deasserted hcs, h.wf (Memory.fresh_wf _), h.gramWf hgram⟩

/-- A construction given up is coherent: nothing is held, the pins stay configured, and `SEQ_PC` is at the failed entry. -/
theorem coherent_abandoned {s t : State} {x y : Coord} {k : Nat} (hs : Coherent s) (hlife : s.life ≠ .constructed)
    (hk : k < 25) (h : BodyKeeps (programState x y k s) t) : Coherent (abandon t) := by
  obtain ⟨-, -, -, -, hcs, -, hgram⟩ := hs
  have hoff : t.life ≠ .constructed := h.life ▸ hlife
  have hpc : t.seqPc.toNat ≤ 25 := by
    rw [h.seqPc, programState, BitVec.toNat_ofNat]
    omega
  exact ⟨fun hon => absurd hon hoff, fun _ => ⟨rfl, rfl⟩, fun _ => h.pincfg, hpc, h.cs_deasserted hcs, rfl, h.gramWf hgram⟩

/-- A torn-down block is coherent: nothing is held, and the pins were configured when it was constructed. -/
theorem coherent_tornDown {s t : State} (hs : Coherent s) (hlife : s.life = .constructed) (h : BodyKeeps s t) :
    Coherent (tearDown t) := by
  obtain ⟨hconstructed, -, -, -, hcs, -, hgram⟩ := hs
  obtain ⟨-, hpins, -, -⟩ := hconstructed hlife
  have hpc : (tearDown t).seqPc.toNat ≤ 25 := by
    have := (Config.freeSeqPc t.freeCount).isLt
    rw [tearDown, BitVec.toNat_ofNat]
    omega
  exact ⟨fun hon => (nomatch hon), fun _ => ⟨rfl, rfl⟩, fun _ => h.pincfg.trans hpins, hpc, h.cs_deasserted hcs, rfl,
    h.gramWf hgram⟩

theorem RequestEnds.coherent {s u : State} {op : Op} (h : RequestEnds s op u) (hs : Coherent s) : Coherent u := by
  have hused (allocate attach : List Answer) : Coherent (answersUsed allocate attach s) := hs
  cases h with
  | body h => exact hs.of_bodyKeeps h
  | pulsed | unacquired => exact hs
  | @constructed _ _ allocate attach _ _ hok h => exact coherent_constructed (hused allocate attach) hok h
  | @abandoned _ _ allocate attach _ _ hlife hk h => exact coherent_abandoned (hused allocate attach) hlife hk h
  | tornDown hlife h => exact coherent_tornDown hs hlife (BodyKeeps.of_sendOnly h)

/-- CTRL's part of a step reaches nothing of the invariant but the form of its own memory. -/
theorem Coherent.of_ctrlOnly {s t : State} (hs : Coherent s) (h : CtrlOnly s t) : Coherent t := by
  obtain ⟨hconstructed, houtside, htorn, hpc, hcs, hfb, hgram⟩ := hs
  have hgram' := h.gram hgram
  rw [h.frame] at hgram' ⊢
  exact ⟨hconstructed, houtside, htorn, hpc, hcs, hfb, hgram'⟩

theorem Coherent.of_finished {u t : State} (hu : Coherent u) (h : Finished u t) : Coherent t := by
  rw [h.frame]
  exact hu

/-- Settles O7: what is taken from the wire and the port is no part of the invariant, and CTRL and every request keep it. -/
theorem stepKeepsCoherent : Obligations.StepKeepsCoherent := by
  intro s t hs hnext
  obtain ⟨rest, h⟩ | ⟨rest, op, u, hends, hfinished⟩ | rfl := step_next hnext
  · exact Coherent.of_ctrlOnly (s := { s with wire := rest }) hs h
  · exact (hends.coherent (s := { s with port := rest }) hs).of_finished hfinished
  · exact hs

/-- Settles O8: nothing is held at reset, and both memories are empty. -/
theorem resetIsCoherent : Obligations.ResetIsCoherent :=
  ⟨fun h => (nomatch h), fun _ => ⟨rfl, rfl⟩, fun h => (nomatch h), by decide, rfl, rfl, rfl⟩

/-- Settles O18: INIT is past its checks, and each failing answer ends it with an error that `FAULT` does not record. -/
theorem acquisitionFailures : Obligations.AcquisitionFailures := by
  intro s tr p x y hmay
  obtain ⟨hlife, hrange⟩ := hmay
  have hok := (geometryOk_iff x y).mpr hrange
  have hunrecorded (f : Option Err) (e : Err) (he : e.recorded = false) : faultAfter f e = f := by
    cases f with
    | none => rw [faultAfter, he]; rfl
    | some f => rfl
  rw [exec_init_of_geometryOk tr p hlife hok]
  refine ⟨fun hfail => ?allocate, fun hallocate hfail => ?attach⟩
  case allocate =>
    rw [acquire_of_allocate_fail x y hfail, finish_raised, takeError, hunrecorded _ _ rfl]
  case attach =>
    rw [acquire_of_attach_fail x y hallocate hfail, finish_raised, takeError, hunrecorded _ _ rfl]

end Sys2Proof.Machine

/-! ### Pixels and FILL (43_framebuffer.md R173, R176, 20_memory.md R56) -/

namespace Sys2Proof.Machine

section Request

variable {op : Op} {body : State → Res Result} {s t : State}

theorem request_of_done {v : Result} (hlife : s.life = .constructed) (h : body s = .done v t) :
    request op body s = .next { t with result := v } := by
  rw [request_constructed hlife, h, finish_done]

theorem request_of_raised {e : Err} (hlife : s.life = .constructed) (h : body s = .raised e t) :
    request op body s = .next (takeError e t) := by
  rw [request_constructed hlife, h, finish_raised]

end Request

section Answer

variable {α : Type} {r : Res α} {t : State}

theorem answer_of_done {a : α} (h : r = .done a t) (v : α → Result) : r.answer v = .done (v a) t := by
  rw [h, answer_done]

theorem answer_of_raised {e : Err} (h : r = .raised e t) (v : α → Result) : r.answer v = .raised e t := by
  rw [h, answer_raised]

end Answer

section Pixels

variable {s : State} {x y : Nat}

theorem inRange_eq_false (h : s.resX.toNat ≤ x ∨ s.resY.toNat ≤ y) : inRange s x y = false := by
  rw [← Bool.not_eq_true, inRange_iff]
  omega

theorem setPixel_of_outOfRange (c : Color) (h : s.resX.toNat ≤ x ∨ s.resY.toNat ≤ y) :
    setPixel x y c s = .raised (.coordOutOfRange x y) s := by
  rw [setPixel, inRange_eq_false h]
  rfl

theorem getPixel_of_outOfRange (h : s.resX.toNat ≤ x ∨ s.resY.toNat ≤ y) :
    getPixel x y s = .raised (.coordOutOfRange x y) s := by
  rw [getPixel, inRange_eq_false h]
  rfl

theorem getPixel_of_readFb {b : Byte} (hrange : inRange s x y = true)
    (hb : readFb s (pixelIndex s.pw.toNat x y) = some b) : getPixel x y s = .done (get b x) s := by
  rw [getPixel, if_pos hrange, hb]

end Pixels

/-! The drawing requests by their bodies. -/

section Exec

variable (s : State)

theorem exec_getpix (x y : Coord) : exec (.getpix x y) s =
    request .getpix (fun t => (getPixel x.toNat y.toNat t).answer .okPixel) s := rfl

theorem exec_fill (c : Color) : exec (.fill c) s = request .fill (fun t => (fillFb c t).answer fun _ => .ok) s := rfl

theorem exec_hline (x1 x2 y : Coord) (c : Color) : exec (.hline x1 x2 y c) s = request .hline
    (fun t => (forEach (fun k => setPixel k y.toNat c) (interval x1.toNat x2.toNat) t).answer fun _ => .ok) s := rfl

theorem exec_vline (y1 y2 x : Coord) (c : Color) : exec (.vline y1 y2 x c) s = request .vline
    (fun t => (forEach (fun k => setPixel x.toNat k c) (interval y1.toNat y2.toNat) t).answer fun _ => .ok) s := rfl

theorem exec_bmp4 (x y : Coord) (r : Ref) (w h : Coord) : exec (.bmp4 x y r w h) s =
    request .bmp4 (fun t => (blit color4 x.toNat y.toNat r w.toNat h.toNat t).answer fun _ => .ok) s := rfl

theorem exec_bmp8 (x y : Coord) (r : Ref) (w h : Coord) : exec (.bmp8 x y r w h) s =
    request .bmp8 (fun t => (blit color8 x.toNat y.toNat r w.toNat h.toNat t).answer fun _ => .ok) s := rfl

theorem exec_char (x y : Coord) (ch : Byte) (f : Ref) : exec (.char x y ch f) s =
    request .char (fun t => (drawChar x.toNat y.toNat ch f t).answer .okAdvance) s := rfl

theorem exec_str (x y : Coord) (r f : Ref) : exec (.str x y r f) s =
    request .str (fun t => (drawString y.toNat f (streamOf t.env r) x.toNat t).answer fun _ => .ok) s := rfl

end Exec

/-- Settles O29: the byte of the pixel exists, and GETPIX answers the half that the column names. -/
theorem getpixReadsOneNibble : Obligations.GetpixReadsOneNibble := by
  intro s x y hs hx hy
  obtain ⟨b, hb⟩ := hs.geometryCoherent.pixel_byte_exists hx hy
  have hdone := getPixel_of_readFb ((inRange_iff ..).mpr ⟨hx, hy⟩) hb
  refine ⟨b, hb, ?_⟩
  rw [exec_getpix, request_of_done hs.constructed (answer_of_done hdone _), get]

/-- Settles O30: out of range both requests raise in the state they began in, and the error is a recorded one. -/
theorem pixelsOutOfRangeRaise : Obligations.PixelsOutOfRangeRaise := by
  intro s x y hlife hout
  rw [← takeError_eq_raisedIn s rfl]
  constructor
  · intro c
    rw [exec_setpix, request_of_raised hlife (answer_of_raised (setPixel_of_outOfRange c hout) _)]
  · rw [exec_getpix, request_of_raised hlife (answer_of_raised (getPixel_of_outOfRange hout) _)]

theorem fillByte_eq_ofNat (c : Color) : fillByte c = BitVec.ofNat 8 (c.toNat % 16 * 17) := by
  apply BitVec.eq_of_toNat_eq
  rw [fillByte_toNat_eq_add, BitVec.toNat_ofNat]
  omega

/-- The framebuffer filled below `n`. -/
theorem readFb_fill {s : State} {n : Nat} (v : Byte) (hn : fbSize s = n) (j : Nat) :
    readFb { s with fb := s.fb.map fun m => m.fill n v } j = if j < n then some v else none := by
  cases hm : s.fb with
  | none =>
    rw [fbSize, hm] at hn
    rw [readFb_of_fb_none (by rw [Option.map_none]), if_neg (by rw [← hn]; exact Nat.not_lt_zero j)]
  | some m =>
    rw [fbSize_eq hm] at hn
    rw [readFb, Option.map_some, Option.bind_some, Memory.read_fill, hn]
    by_cases hj : j < n <;> simp only [hj, if_true, if_false]

theorem fillFb_of_geometryCoherent {s : State} (c : Color) (hg : GeometryCoherent s) :
    fillFb c s = .done () { s with fb := s.fb.map fun m => m.fill s.bsz.toNat (fillByte c) } := by
  rw [fillFb, withFb, if_pos hg.fbSize_eq_bsz.ge]

/-- Settles O31: the buffer is all of `FB`, and every byte of it is the fill byte. -/
theorem fillSetsEveryByte : Obligations.FillSetsEveryByte := by
  intro s c hs
  have hg := hs.geometryCoherent
  rw [exec_fill]
  refine ⟨_, request_of_done hs.constructed (answer_of_done (fillFb_of_geometryCoherent c hg) _), rfl, fun j => ?_⟩
  rw [← fillByte_eq_ofNat]
  exact readFb_fill (fillByte c) hg.fbSize_eq_bsz j

end Sys2Proof.Machine

/-! ### Drawing (44_blitter.md R185 to R203)

A drawing request is a sequence of pixel writes. What a sequence has drawn so far is a relation between the state it began
in and the one it has reached; one pixel write extends it by one pixel, and an error leaves it as it is. -/

namespace Sys2Proof.Machine

/-- The state's in-range pixels have their bytes in a framebuffer of canonical form. -/
structure Canvas (s : State) : Prop where
  wf : fbWf s = true
  column : ∀ x, x < s.resX.toNat → x / 2 < s.pw.toNat
  byte : ∀ x y, x < s.resX.toNat → y < s.resY.toNat → pixelIndex s.pw.toNat x y < fbSize s

theorem Ready.canvas {s : State} (hs : Ready s) : Canvas s where
  wf := hs.fbWf
  column _ := hs.geometryCoherent.half_lt_pw
  byte _ _ hx hy := hs.geometryCoherent.fbSize_eq_bsz ▸ hs.geometryCoherent.pixelIndex_lt_bsz hx hy

/-- `t` is `s` with exactly the pixels `P` drawn in their colours. -/
structure Painted (s t : State) (P : Nat → Nat → Prop) (color : Nat → Nat → BitVec 4) : Prop where
  frame : t = { s with fb := t.fb }
  size : fbSize t = fbSize s
  wf : fbWf t = true
  drawn : ∀ px py, px < 2 * s.pw.toNat → P px py → pix t px py = some (color px py)
  kept : ∀ px py, px < 2 * s.pw.toNat → ¬P px py → pix t px py = pix s px py
  bytes : ∀ j, (∀ px py, P px py → j ≠ pixelIndex s.pw.toNat px py) → readFb t j = readFb s j

namespace Painted

variable {s t u : State} {P Q : Nat → Nat → Prop} {color color' : Nat → Nat → BitVec 4}

theorem nothing (hs : Canvas s) (hP : ∀ px py, ¬P px py) : Painted s s P color where
  frame := rfl
  size := rfl
  wf := hs.wf
  drawn px py _ h := absurd h (hP px py)
  kept _ _ _ _ := rfl
  bytes _ _ := rfl

theorem canvas (h : Painted s t P color) (hs : Canvas s) : Canvas t where
  wf := h.wf
  column := by
    rw [h.frame]
    exact hs.column
  byte := by
    rw [h.size, h.frame]
    exact hs.byte

/-- What is drawn after `P` is drawn over it. -/
theorem trans (h : Painted s t P color) (k : Painted t u Q color) :
    Painted s u (fun px py => P px py ∨ Q px py) color := by
  have hpw : t.pw = s.pw := by rw [h.frame]
  have hdrawn := k.drawn
  have hkept := k.kept
  have hbytes := k.bytes
  rw [hpw] at hdrawn hkept hbytes
  refine ⟨?_, k.size.trans h.size, k.wf, fun px py hpx hPQ => ?_, fun px py hpx hPQ => ?_, fun j hj => ?_⟩
  · rw [k.frame, h.frame]
  · by_cases hQ : Q px py
    · exact hdrawn px py hpx hQ
    · rw [hkept px py hpx hQ, h.drawn px py hpx (hPQ.resolve_right hQ)]
  · rw [hkept px py hpx fun hQ => hPQ (.inr hQ), h.kept px py hpx fun hP => hPQ (.inl hP)]
  · rw [hbytes j fun px py hQ => hj px py (.inr hQ), h.bytes j fun px py hP => hj px py (.inl hP)]

theorem congr (h : Painted s t P color) (hP : ∀ px py, P px py ↔ Q px py)
    (hcolor : ∀ px py, Q px py → color px py = color' px py) : Painted s t Q color' where
  frame := h.frame
  size := h.size
  wf := h.wf
  drawn px py hpx hQ := by rw [h.drawn px py hpx ((hP px py).mpr hQ), hcolor px py hQ]
  kept px py hpx hQ := h.kept px py hpx fun hPx => hQ ((hP px py).mp hPx)
  bytes j hj := h.bytes j fun px py hPx => hj px py ((hP px py).mp hPx)

/-- What has been drawn, whatever outcome is then recorded. -/
theorem drawsExactly (h : Painted s t P color) {inside : Nat → Nat → Bool}
    (hP : ∀ px py, P px py ↔ inside px py = true) (v : Result) (f : Option Err) :
    DrawsExactly s { t with result := v, fault := f } inside color := by
  have h := h.congr (color' := color) hP fun _ _ _ => rfl
  refine ⟨?_, h.size, fun px py hpx _ => ?_, h.bytes⟩
  · rw [h.frame]
  · split
    · exact h.drawn px py hpx (by assumption)
    · exact h.kept px py hpx (by assumption)

end Painted

/-- A pixel write in range completes and draws its pixel. -/
theorem setPixel_paints {s : State} {x y : Nat} {c : Color} {color : Nat → Nat → BitVec 4} (hs : Canvas s)
    (hx : x < s.resX.toNat) (hy : y < s.resY.toNat) (hcolor : colorNibble c = color x y) :
    ∃ t, setPixel x y c s = .done () t ∧ Painted s t (fun px py => px = x ∧ py = y) color := by
  obtain ⟨b, hb⟩ := Option.isSome_iff_exists.mp ((readFb_isSome_iff ..).mpr (hs.byte x y hx hy))
  refine ⟨_, setPixel_of_readFb c ((inRange_iff ..).mpr ⟨hx, hy⟩) hb, rfl, writeFb_size .., ?_, ?_, ?_, ?_⟩
  · exact writeFb_wf _ hs.wf (hs.byte x y hx hy)
  · rintro px py hpx ⟨rfl, rfl⟩
    rw [pix_writeFb_put c hs.wf hb (hs.column _ hx) (Nat.div_lt_of_lt_mul hpx), if_pos ⟨rfl, rfl⟩, hcolor]
  · intro px py hpx hother
    rw [pix_writeFb_put c hs.wf hb (hs.column _ hx) (Nat.div_lt_of_lt_mul hpx), if_neg hother]
  · exact fun j hj => readFb_writeFb_other _ hs.wf (hj x y ⟨rfl, rfl⟩)

/-- A loop each of whose steps draws something draws all of it, in colours that depend on the pixel alone. -/
theorem forEach_paints {α : Type} {f : α → State → Res Unit} {P : α → Nat → Nat → Prop} {color : Nat → Nat → BitVec 4}
    {as : List α} {s : State} (hs : Canvas s)
    (hf : ∀ a ∈ as, ∀ t, t = { s with fb := t.fb } → Canvas t → ∃ u, f a t = .done () u ∧ Painted t u (P a) color) :
    ∃ t, forEach f as s = .done () t ∧ Painted s t (fun px py => ∃ a ∈ as, P a px py) color := by
  induction as generalizing s with
  | nil => exact ⟨s, rfl, Painted.nothing hs fun px py h => by simp at h⟩
  | cons a as ih =>
    obtain ⟨t, ht, hpaint⟩ := hf a List.mem_cons_self s rfl hs
    obtain ⟨u, hu, hrest⟩ := ih (hpaint.canvas hs) fun b hb v hv =>
      hf b (List.mem_cons_of_mem a hb) v (by rw [hv, hpaint.frame])
    refine ⟨u, by rw [forEach, ht, andThen_done, hu], (hpaint.trans hrest).congr (fun px py => ?_) fun _ _ _ => rfl⟩
    rw [List.exists_mem_cons_iff]

/-- A loop ends with the error of the first step that raises. -/
theorem forEach_raises_at {α : Type} {f : α → State → Res Unit} {as bs : List α} {b : α} {s t u : State} {e : Err}
    (hdone : forEach f as s = .done () t) (hraised : f b t = .raised e u) :
    forEach f (as ++ b :: bs) s = .raised e u := by
  rw [forEach_append, hdone, andThen_done, forEach, hraised, andThen_raised]

theorem interval_eq_nil {a b : Nat} (h : b ≤ a) : interval a b = [] := by
  rw [interval, Nat.sub_eq_zero_of_le h, List.range'_zero]

theorem interval_split {a n b : Nat} (ha : a ≤ n) (hb : n < b) :
    interval a b = interval a n ++ n :: interval (n + 1) b := by
  have hlength : b - a = (n - a) + ((b - (n + 1)) + 1) := by omega
  have hstart : a + (n - a) = n := by omega
  rw [interval, hlength, ← List.range'_append_1, hstart, List.range'_succ, interval, interval]

/-! How a drawing request ends. -/

section Outcome

variable {i : Instr} {op : Op} {body : State → Res Result} {s t : State} {P : Nat → Nat → Prop}
  {color : Nat → Nat → BitVec 4} {inside : Nat → Nat → Bool}

theorem exec_draws {v : Result} (hexec : exec i s = request op body s) (hs : Ready s) (hdone : body s = .done v t)
    (hpaint : Painted s t P color) (hP : ∀ px py, P px py ↔ inside px py = true) :
    ∃ u, exec i s = .next u ∧ u.result = v ∧ u.fault = s.fault ∧ DrawsExactly s u inside color := by
  refine ⟨_, hexec.trans (request_of_done hs.constructed hdone), rfl, ?_, hpaint.drawsExactly hP v t.fault⟩
  rw [hpaint.frame]

theorem exec_draws_until {e : Err} (hexec : exec i s = request op body s) (hs : Ready s) (hraised : body s = .raised e t)
    (hrecorded : e.recorded = true) (hpaint : Painted s t P color) (hP : ∀ px py, P px py ↔ inside px py = true) :
    ∃ u, exec i s = .next u ∧ u.result = .raised e ∧ u.fault = faultRecord s e ∧ DrawsExactly s u inside color := by
  rw [hexec, request_of_raised hs.constructed hraised, takeError_eq_raisedIn t hrecorded]
  refine ⟨_, rfl, rfl, ?_, hpaint.drawsExactly hP (.raised e) (faultRecord t e)⟩
  rw [hpaint.frame]
  rfl

end Outcome

/-! Lines: pixel `k` of a line is at `(X k, Y k)`. -/

section Lines

variable {s : State} {X Y : Nat → Nat} {a b : Nat}

theorem line_paints (c : Color) (hs : Canvas s) (hin : ∀ k, a ≤ k → k < b → X k < s.resX.toNat ∧ Y k < s.resY.toNat) :
    ∃ t, forEach (fun k => setPixel (X k) (Y k) c) (interval a b) s = .done () t ∧
      Painted s t (fun px py => ∃ k ∈ interval a b, px = X k ∧ py = Y k) (fun _ _ => colorNibble c) := by
  refine forEach_paints hs fun k hk t ht htc => ?_
  obtain ⟨hak, hkb⟩ := mem_interval.mp hk
  obtain ⟨hx, hy⟩ := hin k hak hkb
  exact setPixel_paints htc (by rwa [ht]) (by rwa [ht]) rfl

/-- A line ends at its first pixel out of range, the pixels before it drawn. -/
theorem line_stops {n : Nat} (c : Color) (hs : Canvas s) (ha : a ≤ n) (hb : n < b)
    (hin : ∀ k, a ≤ k → k < n → X k < s.resX.toNat ∧ Y k < s.resY.toNat)
    (hout : s.resX.toNat ≤ X n ∨ s.resY.toNat ≤ Y n) :
    ∃ t, forEach (fun k => setPixel (X k) (Y k) c) (interval a b) s = .raised (.coordOutOfRange (X n) (Y n)) t ∧
      Painted s t (fun px py => ∃ k ∈ interval a n, px = X k ∧ py = Y k) (fun _ _ => colorNibble c) := by
  obtain ⟨t, hdone, hpaint⟩ := line_paints c hs hin
  refine ⟨t, ?_, hpaint⟩
  rw [interval_split ha hb, forEach_raises_at hdone (setPixel_of_outOfRange c _)]
  rwa [hpaint.frame]

end Lines

/-- Where the pixels of a line of fixed row lie. -/
theorem hline_inside (a b y px py : Nat) : (∃ k ∈ interval a b, px = k ∧ py = y) ↔
    (decide (a ≤ px) && decide (px < b) && decide (py = y)) = true := by
  simp only [mem_interval, Bool.and_eq_true, decide_eq_true_eq]
  constructor
  · rintro ⟨k, hk, rfl, hy⟩
    exact ⟨hk, hy⟩
  · rintro ⟨hk, hy⟩
    exact ⟨px, hk, rfl, hy⟩

/-- Where the pixels of a line of fixed column lie. -/
theorem vline_inside (a b x px py : Nat) : (∃ k ∈ interval a b, px = x ∧ py = k) ↔
    (decide (px = x) && decide (a ≤ py) && decide (py < b)) = true := by
  simp only [mem_interval, Bool.and_eq_true, decide_eq_true_eq]
  constructor
  · rintro ⟨k, ⟨ha, hb⟩, hx, rfl⟩
    exact ⟨⟨hx, ha⟩, hb⟩
  · rintro ⟨⟨hx, ha⟩, hb⟩
    exact ⟨py, ⟨ha, hb⟩, hx, rfl⟩

/-- Settles O35: every pixel of the line is in range. -/
theorem hlineDrawsItsPixels : Obligations.HlineDrawsItsPixels := by
  intro s x1 x2 y c hs hx2 hy
  obtain ⟨t, hdone, hpaint⟩ := line_paints (X := fun k => k) (Y := fun _ => y.toNat) (a := x1.toNat) (b := x2.toNat) c
    hs.canvas fun k _ hk => ⟨hk.trans_le hx2, hy⟩
  exact exec_draws (exec_hline s x1 x2 y c) hs (answer_of_done hdone _) hpaint (hline_inside _ _ _)

/-- Settles O36: every pixel of the line is in range. -/
theorem vlineDrawsItsPixels : Obligations.VlineDrawsItsPixels := by
  intro s y1 y2 x c hs hx hy2
  obtain ⟨t, hdone, hpaint⟩ := line_paints (X := fun _ => x.toNat) (Y := fun k => k) (a := y1.toNat) (b := y2.toNat) c
    hs.canvas fun k _ hk => ⟨hx, hk.trans_le hy2⟩
  exact exec_draws (exec_vline s y1 y2 x c) hs (answer_of_done hdone _) hpaint (vline_inside _ _ _)

/-- Settles O37: the loop of an empty line has no step. -/
theorem emptyLinesDoNothing : Obligations.EmptyLinesDoNothing := by
  intro s a b k c hlife hempty
  rw [exec_hline, exec_vline]
  constructor <;>
    exact request_of_done hlife (by rw [interval_eq_nil hempty, forEach_nil, answer_done])

/-- Where a line along one axis ends: at its start when its fixed coordinate is out of range, else at the first of its own
that is. -/
theorem line_stop_position {start stop res fixed resFixed bad : Nat} (hline : start < stop)
    (hout : res < stop ∨ resFixed ≤ fixed) (hbad : bad = if fixed < resFixed then max start res else start) :
    start ≤ bad ∧ bad < stop ∧ (∀ k, start ≤ k → k < bad → k < res ∧ fixed < resFixed) ∧ (res ≤ bad ∨ resFixed ≤ fixed) := by
  split at hbad <;> refine ⟨by omega, by omega, fun k hk hkb => ?_, by omega⟩ <;> omega

/-- Settles O38: the pixels before the stop position are in range, and the one there is not. -/
theorem linesStopAtTheEdge : Obligations.LinesStopAtTheEdge := by
  refine ⟨fun s x1 x2 y c hs hline hout => ?hline, fun s y1 y2 x c hs hline hout => ?vline⟩
  case hline =>
    obtain ⟨hstart, hstop, hin, hbad⟩ := line_stop_position hline hout rfl
    obtain ⟨t, hraised, hpaint⟩ := line_stops (X := fun k => k) (Y := fun _ => y.toNat) c hs.canvas hstart hstop hin hbad
    obtain ⟨u, hexec, hresult, hfault, hdraws⟩ := exec_draws_until (exec_hline s x1 x2 y c) hs
      (answer_of_raised hraised _) rfl hpaint (hline_inside _ _ _)
    exact ⟨u, _, hexec, rfl, hresult, hfault, hdraws⟩
  case vline =>
    obtain ⟨hstart, hstop, hin, hbad⟩ := line_stop_position hline hout rfl
    obtain ⟨t, hraised, hpaint⟩ := line_stops (X := fun _ => x.toNat) (Y := fun k => k) c hs.canvas hstart hstop
      (fun k hk hkb => (hin k hk hkb).symm) hbad.symm
    obtain ⟨u, hexec, hresult, hfault, hdraws⟩ := exec_draws_until (exec_vline s y1 y2 x c) hs
      (answer_of_raised hraised _) rfl hpaint (vline_inside _ _ _)
    exact ⟨u, _, hexec, rfl, hresult, hfault, hdraws⟩

end Sys2Proof.Machine

/-! ### Bitmaps (30_encoding.md R89, R90, 44_blitter.md R191 to R197, R203)

A source format is a reader: which byte pixel `k` comes from and which nibble of it is its colour. Pixel `k` of a bitmap of
width `w` is at `(x + k % w, y + k / w)`, so the first `n` pixels are those of the rectangle with row-major number below
`n`. -/

namespace Sys2Proof.Machine

/-- `color` reads pixel `k` from byte `byteOf k` of the stream, and raises where that byte is missing. -/
structure ReadsPixels (color : Env → Ref → Nat → Except Err Color) (byteOf : Nat → Nat)
    (pixel : List Byte → Nat → BitVec 4) : Prop where
  present : ∀ env r k, byteOf k < (streamOf env r).length →
    ∃ c, color env r k = .ok c ∧ colorNibble c = pixel (streamOf env r) k
  missing : ∀ env r k, (streamOf env r).length ≤ byteOf k → color env r k = .error (.sourceUnderrun r (byteOf k))

section Sources

variable {env : Env} {r : Ref} {i : Nat}

theorem srcRead_of_lt (h : i < (streamOf env r).length) : srcRead env r i = .ok ((streamOf env r).getD i 0) := by
  rw [srcRead, List.getElem?_eq_getElem h, List.getD_eq_getElem _ _ h]

theorem srcRead_of_ge (h : (streamOf env r).length ≤ i) : srcRead env r i = .error (.sourceUnderrun r i) := by
  rw [srcRead, List.getElem?_eq_none h]

end Sources

theorem color4_readsPixels : ReadsPixels color4 (fun k => k / 2) nibbleAt where
  present env r k h := by
    rw [color4, srcRead_of_lt h]
    exact ⟨_, rfl, colorNibble_setWidth _⟩
  missing env r k h := by rw [color4, srcRead_of_ge h]

theorem color8_readsPixels : ReadsPixels color8 (fun k => k) highAt where
  present env r k h := by
    rw [color8, srcRead_of_lt h]
    exact ⟨_, rfl, colorNibble_setWidth _⟩
  missing env r k h := by rw [color8, srcRead_of_ge h]

/-- What a glyph format settles: the reader, its bytes and its colours, and the length of a bitmap (log 11). -/
theorem glyph_format :
    (glyphColor = color4 ∧ glyphByte = (fun k => k / 2) ∧ glyphPixel = nibbleAt ∧ glyphBytes = fun n => (n + 1) / 2) ∨
    (glyphColor = color8 ∧ glyphByte = (fun k => k) ∧ glyphPixel = highAt ∧ glyphBytes = fun n => n) := by
  unfold glyphColor glyphByte glyphPixel glyphBytes
  cases Config.glyphFmt
  · exact .inl ⟨rfl, rfl, rfl, rfl⟩
  · exact .inr ⟨rfl, rfl, rfl, rfl⟩

theorem glyphColor_readsPixels : ReadsPixels glyphColor glyphByte glyphPixel := by
  obtain ⟨hcolor, hbyte, hpixel, -⟩ | ⟨hcolor, hbyte, hpixel, -⟩ := glyph_format <;> rw [hcolor, hbyte, hpixel]
  · exact color4_readsPixels
  · exact color8_readsPixels

/-- A bitmap of full length has the byte of every pixel. -/
theorem glyphByte_lt {n k length : Nat} (hlength : glyphBytes n ≤ length) (hk : k < n) : glyphByte k < length := by
  obtain ⟨-, hbyte, -, hbytes⟩ | ⟨-, hbyte, -, hbytes⟩ := glyph_format <;>
    simp only [hbytes] at hlength <;> simp only [hbyte]
  · omega
  · exact hk.trans_le hlength

/-! Positions of a bitmap's pixels. -/

theorem rectPixel_position (x y w k : Nat) : rectPixel x y w (x + k % w) (y + k / w) = k := by
  rw [rectPixel, Nat.add_sub_cancel_left, Nat.add_sub_cancel_left, Nat.div_add_mod']

theorem inRect_iff (x y w h px py : Nat) : inRect x y w h px py = true ↔ x ≤ px ∧ px < x + w ∧ y ≤ py ∧ py < y + h := by
  simp only [inRect, Bool.and_eq_true, decide_eq_true_eq, and_assoc]

theorem inRectBefore_iff (n x y w h px py : Nat) :
    inRectBefore n x y w h px py = true ↔ inRect x y w h px py = true ∧ rectPixel x y w px py < n := by
  rw [inRectBefore, Bool.and_eq_true, decide_eq_true_eq]

/-- A pixel of the rectangle stands where its number says. -/
theorem position_rectPixel {x y w h px py : Nat} (hin : inRect x y w h px py = true) :
    px = x + rectPixel x y w px py % w ∧ py = y + rectPixel x y w px py / w := by
  obtain ⟨hx, hxw, hy, -⟩ := (inRect_iff ..).mp hin
  have hcolumn : px - x < w := by omega
  have hmod : rectPixel x y w px py % w = px - x := by rw [rectPixel, Nat.mul_add_mod', Nat.mod_eq_of_lt hcolumn]
  have hdiv : rectPixel x y w px py / w = py - y := by
    rw [rectPixel, Nat.mul_comm, Nat.mul_add_div (Nat.zero_lt_of_lt hcolumn), Nat.div_eq_of_lt hcolumn, Nat.add_zero]
  omega

/-- Pixel `k` of a bitmap lies in its rectangle. -/
theorem inRect_position {w h k : Nat} (x y : Nat) (hk : k < w * h) : inRect x y w h (x + k % w) (y + k / w) = true := by
  have hw : 0 < w := Nat.pos_of_mul_pos_right (Nat.zero_lt_of_lt hk)
  have hcolumn : k % w < w := Nat.mod_lt k hw
  have hrow : k / w < h := Nat.div_lt_of_lt_mul hk
  exact (inRect_iff ..).mpr
    ⟨Nat.le_add_right .., Nat.add_lt_add_left hcolumn x, Nat.le_add_right .., Nat.add_lt_add_left hrow y⟩

/-- The first `n` pixels of a bitmap are those of the rectangle with number below `n`. -/
theorem bitmap_inside {n w h : Nat} (hn : n ≤ w * h) (x y px py : Nat) :
    (∃ k ∈ interval 0 n, px = x + k % w ∧ py = y + k / w) ↔ inRectBefore n x y w h px py = true := by
  rw [inRectBefore_iff]
  constructor
  · rintro ⟨k, hk, rfl, rfl⟩
    have hk := (mem_interval.mp hk).2
    exact ⟨inRect_position x y (hk.trans_le hn), by rwa [rectPixel_position]⟩
  · rintro ⟨hin, hk⟩
    exact ⟨_, mem_interval.mpr ⟨Nat.zero_le _, hk⟩, position_rectPixel hin⟩

/-- All pixels of a bitmap are those of the rectangle. -/
theorem inRectBefore_all (x y w h px py : Nat) : inRectBefore (w * h) x y w h px py = inRect x y w h px py := by
  rw [Bool.eq_iff_iff, inRectBefore_iff, and_iff_left_iff_imp]
  intro hin
  obtain ⟨-, hxw, -, hyh⟩ := (inRect_iff ..).mp hin
  obtain ⟨hx, hy⟩ := position_rectPixel hin
  have hrow : rectPixel x y w px py / w < h := by omega
  exact (Nat.div_lt_iff_lt_mul (by omega)).mp hrow |>.trans_eq (Nat.mul_comm h w)

/-! The loop of a bitmap. -/

/-- The step of `blit` for pixel `k`. -/
def blitPixel (color : Env → Ref → Nat → Except Err Color) (x y : Nat) (r : Ref) (w k : Nat) (s : State) : Res Unit :=
  match color s.env r k with
  | .ok c => setPixel (x + k % w) (y + k / w) c s
  | .error e => .raised e s

theorem blit_eq (color : Env → Ref → Nat → Except Err Color) (x y : Nat) (r : Ref) (w h : Nat) (s : State) :
    blit color x y r w h s = forEach (blitPixel color x y r w) (interval 0 (w * h)) s := rfl

/-- Pixel `k` of the bitmap is in range and has its source byte. -/
def PixelFits (s : State) (x y : Nat) (r : Ref) (w : Nat) (byteOf : Nat → Nat) (k : Nat) : Prop :=
  x + k % w < s.resX.toNat ∧ y + k / w < s.resY.toNat ∧ byteOf k < (streamOf s.env r).length

section Blit

variable {color : Env → Ref → Nat → Except Err Color} {byteOf : Nat → Nat} {pixel : List Byte → Nat → BitVec 4}
  {s : State} {x y w h n : Nat} {r : Ref}

theorem blitPixel_of_ok {k : Nat} {c : Color} (hc : color s.env r k = .ok c) :
    blitPixel color x y r w k s = setPixel (x + k % w) (y + k / w) c s := by
  rw [blitPixel, hc]

theorem blitPixel_of_error {k : Nat} {e : Err} (he : color s.env r k = .error e) :
    blitPixel color x y r w k s = .raised e s := by
  rw [blitPixel, he]

/-- The first pixels of a bitmap, in range and with their bytes, are drawn in the stream's colours. -/
theorem blitPixels_paint (hreads : ReadsPixels color byteOf pixel) (hs : Canvas s) (hn : n ≤ w * h)
    (hfits : ∀ k, k < n → PixelFits s x y r w byteOf k) :
    ∃ t, forEach (blitPixel color x y r w) (interval 0 n) s = .done () t ∧
      Painted s t (fun px py => inRectBefore n x y w h px py = true)
        (fun px py => pixel (streamOf s.env r) (rectPixel x y w px py)) := by
  have hdraw : ∀ k ∈ interval 0 n, ∀ t, t = { s with fb := t.fb } → Canvas t →
      ∃ u, blitPixel color x y r w k t = .done () u ∧ Painted t u (fun px py => px = x + k % w ∧ py = y + k / w)
        (fun px py => pixel (streamOf s.env r) (rectPixel x y w px py)) := by
    intro k hk t ht htc
    obtain ⟨hx, hy, hbyte⟩ := hfits k (mem_interval.mp hk).2
    obtain ⟨c, hc, hnibble⟩ := hreads.present s.env r k hbyte
    have henv : t.env = s.env := by rw [ht]
    rw [blitPixel_of_ok (by rw [henv, hc])]
    exact setPixel_paints htc (by rwa [ht]) (by rwa [ht]) (by rw [hnibble, rectPixel_position])
  obtain ⟨t, hdone, hpaint⟩ := forEach_paints hs hdraw
  exact ⟨t, hdone, hpaint.congr (bitmap_inside hn x y) fun _ _ _ => rfl⟩

/-- A bitmap that fits is drawn whole. -/
theorem blit_paints (hreads : ReadsPixels color byteOf pixel) (hs : Canvas s)
    (hfits : ∀ k, k < w * h → PixelFits s x y r w byteOf k) :
    ∃ t, blit color x y r w h s = .done () t ∧ Painted s t (fun px py => inRect x y w h px py = true)
      (fun px py => pixel (streamOf s.env r) (rectPixel x y w px py)) := by
  obtain ⟨t, hdone, hpaint⟩ := blitPixels_paint hreads hs le_rfl hfits
  exact ⟨t, hdone, hpaint.congr (fun px py => by rw [inRectBefore_all]) fun _ _ _ => rfl⟩

/-- A bitmap ends at its first bad pixel, its source byte asked for first, the pixels before it drawn. -/
theorem blit_stops (hreads : ReadsPixels color byteOf pixel) (hs : Canvas s) {e : Err}
    (hstop : StopsAt s x y r w h byteOf n e) :
    e.recorded = true ∧ ∃ t, blit color x y r w h s = .raised e t ∧
      Painted s t (fun px py => inRectBefore n x y w h px py = true)
        (fun px py => pixel (streamOf s.env r) (rectPixel x y w px py)) := by
  obtain ⟨hn, hfits, hbad⟩ := hstop
  obtain ⟨t, hdone, hpaint⟩ := blitPixels_paint hreads hs hn.le hfits
  have henv : t.env = s.env := by rw [hpaint.frame]
  have hraised : e.recorded = true ∧ blitPixel color x y r w n t = .raised e t := by
    obtain ⟨hmissing, rfl⟩ | ⟨hbyte, hout, rfl⟩ := hbad
    · exact ⟨rfl, blitPixel_of_error (by rw [henv, hreads.missing s.env r n hmissing])⟩
    · obtain ⟨c, hc, -⟩ := hreads.present s.env r n hbyte
      refine ⟨rfl, (blitPixel_of_ok (by rw [henv, hc])).trans (setPixel_of_outOfRange c ?_)⟩
      rwa [hpaint.frame]
  refine ⟨hraised.1, t, ?_, hpaint⟩
  rw [blit_eq, interval_split n.zero_le hn, forEach_raises_at hdone hraised.2]

/-- The pixels of a rectangle in range. -/
theorem pixelFits_of_rect {k : Nat} (hx : x + w ≤ s.resX.toNat) (hy : y + h ≤ s.resY.toNat) (hk : k < w * h)
    (hbyte : byteOf k < (streamOf s.env r).length) : PixelFits s x y r w byteOf k := by
  obtain ⟨-, hxw, -, hyh⟩ := (inRect_iff ..).mp (inRect_position (w := w) (h := h) x y hk)
  exact ⟨hxw.trans_le hx, hyh.trans_le hy, hbyte⟩

end Blit

/-- Settles O39: every pixel of the rectangle is in range and has its nibble. -/
theorem bmp4DrawsTheStream : Obligations.Bmp4DrawsTheStream := by
  intro s x y r w h hs hx hy hlength
  obtain ⟨t, hdone, hpaint⟩ := blit_paints color4_readsPixels hs.canvas fun k hk =>
    pixelFits_of_rect (r := r) (byteOf := fun k => k / 2) hx hy hk (by show k / 2 < _; omega)
  exact exec_draws (exec_bmp4 s x y r w h) hs (answer_of_done hdone _) hpaint fun _ _ => Iff.rfl

/-- Settles O40: every pixel of the rectangle is in range and has its byte. -/
theorem bmp8DrawsTheStream : Obligations.Bmp8DrawsTheStream := by
  intro s x y r w h hs hx hy hlength
  obtain ⟨t, hdone, hpaint⟩ := blit_paints color8_readsPixels hs.canvas fun k hk =>
    pixelFits_of_rect (r := r) (byteOf := fun k => k) hx hy hk (hk.trans_le hlength)
  exact exec_draws (exec_bmp8 s x y r w h) hs (answer_of_done hdone _) hpaint fun _ _ => Iff.rfl

theorem blit_empty (color : Env → Ref → Nat → Except Err Color) (x y : Nat) (r : Ref) {w h : Nat} (s : State)
    (hempty : w = 0 ∨ h = 0) : blit color x y r w h s = .done () s := by
  rw [blit_eq, Nat.mul_eq_zero.mpr hempty, interval_eq_nil le_rfl, forEach_nil]

/-- Settles O41: the loop of an empty bitmap has no step. -/
theorem emptyBitmapsDoNothing : Obligations.EmptyBitmapsDoNothing := by
  intro s x y r w h hlife hempty
  rw [exec_bmp4, exec_bmp8]
  exact ⟨request_of_done hlife (answer_of_done (blit_empty color4 _ _ r s hempty) _),
    request_of_done hlife (answer_of_done (blit_empty color8 _ _ r s hempty) _)⟩

end Sys2Proof.Machine

/-! ### Glyphs and strings (44_blitter.md R197, R200, R201)

STR is a loop over the glyphs of its plan: a code outside the font advances by nothing, and drawing changes neither the
width of the display nor the font. The glyphs of a plan lie side by side, so each pixel belongs to one of them. -/

namespace Sys2Proof.Machine

theorem drawChar_of_valid {s : State} {ch : Byte} {f : Ref} (x y : Nat) (hvalid : validCode (fontOf s.env f) ch = true) :
    drawChar x y ch f s =
      (blit glyphColor x y (glyphOf (fontOf s.env f) ch).bmp (glyphOf (fontOf s.env f) ch).w.toNat
        (glyphOf (fontOf s.env f) ch).h.toNat s).andThen fun _ t => .done (glyphOf (fontOf s.env f) ch).w t := by
  rw [drawChar, if_pos hvalid]

theorem drawChar_of_invalid {s : State} {ch : Byte} {f : Ref} (x y : Nat)
    (hinvalid : ¬validCode (fontOf s.env f) ch = true) : drawChar x y ch f s = .done 0 s := by
  rw [drawChar, if_neg hinvalid]

/-- A glyph drawn where it fits. -/
def glyphColors (s : State) (g : Glyph) (x y px py : Nat) : BitVec 4 :=
  glyphPixel (streamOf s.env g.bmp) (rectPixel x y g.w.toNat px py)

theorem glyph_paints {s : State} {x y : Nat} {g : Glyph} (hs : Canvas s) (hfits : glyphFits s x y g) :
    ∃ t, blit glyphColor x y g.bmp g.w.toNat g.h.toNat s = .done () t ∧
      Painted s t (fun px py => inRect x y g.w.toNat g.h.toNat px py = true) (glyphColors s g x y) := by
  obtain ⟨hrect, hlength⟩ := hfits
  refine blit_paints glyphColor_readsPixels hs fun k hk => ?_
  obtain ⟨hx, hy⟩ := hrect.resolve_left (Nat.ne_zero_of_lt hk)
  exact pixelFits_of_rect hx hy hk (glyphByte_lt hlength hk)

theorem glyph_stops {s : State} {x y n : Nat} {g : Glyph} {e : Err} (hs : Canvas s)
    (hstop : StopsAt s x y g.bmp g.w.toNat g.h.toNat glyphByte n e) :
    e.recorded = true ∧ ∃ t, blit glyphColor x y g.bmp g.w.toNat g.h.toNat s = .raised e t ∧
      Painted s t (fun px py => inRectBefore n x y g.w.toNat g.h.toNat px py = true) (glyphColors s g x y) :=
  blit_stops glyphColor_readsPixels hs hstop

/-- Settles O42: the three bitmaps are one loop with three readers. -/
theorem bitmapsStopAtTheFirstBadPixel : Obligations.BitmapsStopAtTheFirstBadPixel := by
  intro s x y n e hs
  refine ⟨fun r w h hstop => ?bmp4, fun r w h hstop => ?bmp8, fun ch f g hvalid hg hstop => ?char⟩
  case bmp4 =>
    obtain ⟨hrecorded, t, hraised, hpaint⟩ := blit_stops color4_readsPixels hs.canvas hstop
    exact exec_draws_until (exec_bmp4 s x y r w h) hs (answer_of_raised hraised _) hrecorded hpaint fun _ _ => Iff.rfl
  case bmp8 =>
    obtain ⟨hrecorded, t, hraised, hpaint⟩ := blit_stops color8_readsPixels hs.canvas hstop
    exact exec_draws_until (exec_bmp8 s x y r w h) hs (answer_of_raised hraised _) hrecorded hpaint fun _ _ => Iff.rfl
  case char =>
    obtain ⟨hrecorded, t, hraised, hpaint⟩ := glyph_stops hs.canvas hstop
    have hchar : drawChar x.toNat y.toNat ch f s = .raised e t := by
      rw [drawChar_of_valid _ _ hvalid, hg, hraised, andThen_raised]
    exact exec_draws_until (exec_char s x y ch f) hs (answer_of_raised hchar _) hrecorded hpaint fun _ _ => Iff.rfl

/-- Settles O43: the glyph is a bitmap that fits, and its width is the advance. -/
theorem charDrawsItsGlyph : Obligations.CharDrawsItsGlyph := by
  intro s x y ch f g hs hvalid hg hfits
  obtain ⟨t, hdone, hpaint⟩ := glyph_paints hs.canvas hfits
  have hchar : drawChar x.toNat y.toNat ch f s = .done g.w t := by
    rw [drawChar_of_valid _ _ hvalid, hg, hdone, andThen_done]
  exact exec_draws (exec_char s x y ch f) hs (answer_of_done hchar _) hpaint fun _ _ => Iff.rfl

/-- Settles O44: such a code is not valid. -/
theorem invalidCharIsANoOp : Obligations.InvalidCharIsANoOp := by
  intro s x y ch f hlife hout
  have hinvalid : ¬validCode (fontOf s.env f) ch = true := by
    rw [validCode, Bool.and_eq_true, decide_eq_true_eq, decide_eq_true_eq, not_and_or, BitVec.not_le, BitVec.not_le]
    exact hout
  rw [exec_char, request_of_done hlife (answer_of_done (drawChar_of_invalid _ _ hinvalid) _)]

/-! The plan of a string. -/

/-- The step of STR for a glyph of its plan. -/
def drawPlanned (y : Nat) (f : Ref) (p : Nat × Byte) (s : State) : Res Unit :=
  (drawChar p.1 y p.2 f s).andThen fun _ t => .done () t

/-- What drawing leaves of the display's width and the fonts. -/
theorem FbOnly.font_eq {s t : State} (h : FbOnly s t) (f : Ref) : t.resX = s.resX ∧ fontOf t.env f = fontOf s.env f := by
  obtain ⟨hframe, -⟩ := h
  rw [hframe]
  exact ⟨rfl, rfl⟩

/-- What a valid character answers is its glyph's width. -/
theorem drawChar_done {s t : State} {x y : Nat} {ch : Byte} {f : Ref} {adv : Coord}
    (hvalid : validCode (fontOf s.env f) ch = true) (h : drawChar x y ch f s = .done adv t) :
    adv = (glyphOf (fontOf s.env f) ch).w := by
  rw [drawChar_of_valid _ _ hvalid] at h
  cases hblit : blit glyphColor x y (glyphOf (fontOf s.env f) ch).bmp (glyphOf (fontOf s.env f) ch).w.toNat
      (glyphOf (fontOf s.env f) ch).h.toNat s with
  | done a u =>
    rw [hblit] at h
    cases h
    rfl
  | raised e u =>
    rw [hblit] at h
    cases h
  | stopped e =>
    rw [hblit] at h
    cases h

/-- STR runs through its plan. -/
theorem drawString_eq_plan (y : Nat) (f : Ref) (chs : List Byte) (cur : Nat) (s : State) :
    drawString y f chs cur s = forEach (drawPlanned y f) (stringPlan s.resX.toNat (fontOf s.env f) chs cur) s := by
  induction chs generalizing cur s with
  | nil => rfl
  | cons ch rest ih =>
    rw [drawString, stringPlan]
    by_cases hstop : ch = 0x0A ∨ s.resX.toNat ≤ cur
    · rw [if_pos hstop, forEach_nil]
      by_cases hnewline : ch = Config.newline
      · rw [if_pos hnewline]
      · rw [if_neg hnewline, if_pos (hstop.resolve_left hnewline)]
    · obtain ⟨(hnewline : ¬ch = Config.newline), hedge⟩ := not_or.mp hstop
      rw [if_neg hstop, if_neg hnewline, if_neg hedge]
      by_cases hvalid : validCode (fontOf s.env f) ch = true
      · rw [if_pos hvalid, forEach, drawPlanned, andThen_assoc]
        have hends := drawChar_ends cur y ch f s
        cases hchar : drawChar cur y ch f s with
        | done adv t =>
          rw [hchar] at hends
          obtain ⟨hres, hfont⟩ := FbOnly.font_eq hends f
          rw [andThen_done, andThen_done, andThen_done, ih, hres, hfont, drawChar_done hvalid hchar]
        | raised e t => rfl
        | stopped e => rfl
      · rw [if_neg hvalid, drawChar_of_invalid _ _ hvalid, andThen_done, ih]
        rfl

/-- The glyphs of a plan are valid, begin at or after the cursor, and follow each other without overlap. -/
theorem stringPlan_ordered (resX : Nat) (f : Font) (chs : List Byte) (cur : Nat) :
    (∀ p ∈ stringPlan resX f chs cur, cur ≤ p.1 ∧ validCode f p.2 = true) ∧
      (stringPlan resX f chs cur).Pairwise fun p q => p.1 + (glyphOf f p.2).w.toNat ≤ q.1 := by
  induction chs generalizing cur with
  | nil => exact ⟨fun _ hp => absurd hp List.not_mem_nil, List.Pairwise.nil⟩
  | cons ch rest ih =>
    rw [stringPlan]
    split
    · exact ⟨fun _ hp => absurd hp List.not_mem_nil, List.Pairwise.nil⟩
    · split
      · rename_i hvalid
        obtain ⟨hafter, hordered⟩ := ih (cur + (glyphOf f ch).w.toNat)
        refine ⟨fun p hp => ?_, List.pairwise_cons.mpr ⟨fun q hq => (hafter q hq).1, hordered⟩⟩
        obtain rfl | hp := List.mem_cons.mp hp
        · exact ⟨le_rfl, hvalid⟩
        · exact ⟨(Nat.le_add_right ..).trans (hafter p hp).1, (hafter p hp).2⟩
      · exact ih cur

/-- The pixels of a glyph of a plan. -/
def inGlyph (f : Font) (y : Nat) (p : Nat × Byte) (px py : Nat) : Bool :=
  inRect p.1 y (glyphOf f p.2).w.toNat (glyphOf f p.2).h.toNat px py

theorem planAt_isSome (f : Font) (y : Nat) (plan : List (Nat × Byte)) (px py : Nat) :
    (planAt f y plan px py).isSome = true ↔ ∃ p ∈ plan, inGlyph f y p px py = true :=
  List.find?_isSome

/-- Where glyphs follow each other without overlap, a pixel of one of them belongs to that one. -/
theorem planAt_eq_some {f : Font} {y px py : Nat} {plan : List (Nat × Byte)} {p : Nat × Byte}
    (hordered : plan.Pairwise fun p q => p.1 + (glyphOf f p.2).w.toNat ≤ q.1) (hp : p ∈ plan)
    (hin : inGlyph f y p px py = true) : planAt f y plan px py = some p := by
  induction plan with
  | nil => exact absurd hp List.not_mem_nil
  | cons q rest ih =>
    obtain ⟨hq, hrest⟩ := List.pairwise_cons.mp hordered
    rw [planAt, List.find?_cons]
    obtain rfl | hp := List.mem_cons.mp hp
    · rw [show inRect _ _ _ _ _ _ = true from hin]
    · have hnot : inRect q.1 y (glyphOf f q.2).w.toNat (glyphOf f q.2).h.toNat px py = false := by
        obtain ⟨hx, -⟩ := (inRect_iff ..).mp hin
        have := hq p hp
        rw [← Bool.not_eq_true, inRect_iff]
        omega
      rw [hnot]
      exact ih hrest hp

theorem planColor_of_mem {s : State} {f : Font} {y px py : Nat} {plan : List (Nat × Byte)} {p : Nat × Byte}
    (hordered : plan.Pairwise fun p q => p.1 + (glyphOf f p.2).w.toNat ≤ q.1) (hp : p ∈ plan)
    (hin : inGlyph f y p px py = true) : planColor s f y plan px py = glyphColors s (glyphOf f p.2) p.1 y px py := by
  rw [planColor, planAt_eq_some hordered hp hin, glyphColors]

/-- The glyphs of a plan that all fit are drawn, in any colouring that gives each its own colours. -/
theorem plan_paints {s : State} {y : Nat} {f : Ref} {plan : List (Nat × Byte)} {color : Nat → Nat → BitVec 4}
    (hs : Canvas s) (hvalid : ∀ p ∈ plan, validCode (fontOf s.env f) p.2 = true)
    (hfits : ∀ p ∈ plan, glyphFits s p.1 y (glyphOf (fontOf s.env f) p.2))
    (hcolor : ∀ p ∈ plan, ∀ px py, inGlyph (fontOf s.env f) y p px py = true →
      color px py = glyphColors s (glyphOf (fontOf s.env f) p.2) p.1 y px py) :
    ∃ t, forEach (drawPlanned y f) plan s = .done () t ∧
      Painted s t (fun px py => ∃ p ∈ plan, inGlyph (fontOf s.env f) y p px py = true) color := by
  refine forEach_paints hs fun p hp t ht htc => ?_
  have henv : t.env = s.env := by rw [ht]
  have hfit : glyphFits t p.1 y (glyphOf (fontOf s.env f) p.2) := by
    rw [ht]
    exact hfits p hp
  obtain ⟨u, hdone, hpaint⟩ := glyph_paints htc hfit
  refine ⟨u, ?_, hpaint.congr (fun _ _ => Iff.rfl) fun px py hin => ?_⟩
  · rw [drawPlanned, drawChar_of_valid _ _ (by rw [henv]; exact hvalid p hp), henv, hdone, andThen_done, andThen_done]
  · rw [hcolor p hp px py hin, glyphColors, henv, glyphColors]

/-- Settles O45: STR is the loop over its plan, whose glyphs do not overlap; where one of them is bad, the loop has drawn
those before it and ends inside it. -/
theorem strDrawsItsPlan : Obligations.StrDrawsItsPlan := by
  refine ⟨fun s x y r f plan hs hplan hfits => ?all, fun s x y r f done rest cur ch g n e hs hplan hfits hg hstop => ?stop⟩
  case all =>
    obtain ⟨hvalid, hordered⟩ := hplan ▸ stringPlan_ordered s.resX.toNat (fontOf s.env f) (streamOf s.env r) x.toNat
    obtain ⟨t, hdone, hpaint⟩ := plan_paints (color := planColor s (fontOf s.env f) y.toNat plan) hs.canvas
      (fun p hp => (hvalid p hp).2) hfits fun p hp px py => planColor_of_mem hordered hp
    have hstring := (drawString_eq_plan y.toNat f (streamOf s.env r) x.toNat s).trans (hplan ▸ hdone)
    exact exec_draws (exec_str s x y r f) hs (answer_of_done hstring _) hpaint fun px py => (planAt_isSome ..).symm
  case stop =>
    obtain ⟨hvalid, hordered⟩ := hplan ▸ stringPlan_ordered s.resX.toNat (fontOf s.env f) (streamOf s.env r) x.toNat
    obtain ⟨hordered, -, hbefore⟩ := List.pairwise_append.mp hordered
    have hnotLast : ∀ p ∈ done, ∀ px py, inGlyph (fontOf s.env f) y.toNat p px py = true →
        ¬inRectBefore n cur y.toNat g.w.toNat g.h.toNat px py = true := by
      intro p hp px py hin hlast
      have hleft := hbefore p hp (cur, ch) List.mem_cons_self
      obtain ⟨-, hx, -⟩ := (inRect_iff ..).mp hin
      obtain ⟨hx', -⟩ := (inRect_iff ..).mp ((inRectBefore_iff ..).mp hlast).1
      omega
    obtain ⟨t, hdone, hpaint⟩ := plan_paints hs.canvas (fun p hp => (hvalid p (List.mem_append_left _ hp)).2) hfits
      fun p hp px py hin => (if_neg (hnotLast p hp px py hin)).trans (planColor_of_mem hordered hp hin)
    have henv : t.env = s.env := by rw [hpaint.frame]
    have hstop' : StopsAt t cur y.toNat g.bmp g.w.toNat g.h.toNat glyphByte n e := by
      rw [hpaint.frame]
      exact hstop
    obtain ⟨hrecorded, u, hraised, hlast⟩ := glyph_stops (hpaint.canvas hs.canvas) hstop'
    have hchar : drawPlanned y.toNat f (cur, ch) t = .raised e u := by
      rw [drawPlanned, drawChar_of_valid _ _ (by rw [henv]; exact (hvalid (cur, ch) (by simp)).2), henv, hg, hraised,
        andThen_raised, andThen_raised]
    have hstring := (drawString_eq_plan y.toNat f (streamOf s.env r) x.toNat s).trans
      (hplan ▸ forEach_raises_at hdone hchar)
    refine exec_draws_until (exec_str s x y r f) hs (answer_of_raised hstring _) hrecorded
      (hpaint.trans (hlast.congr (fun _ _ => Iff.rfl) fun px py hin => ?lastColor)) fun px py => ?inside
    case lastColor =>
      rw [if_pos hin, glyphColors, henv]
    case inside =>
      rw [Bool.or_eq_true, planAt_isSome]

end Sys2Proof.Machine

/-! ### One Send (40_command_channel.md R110 to R117, 60_exceptions.md R234, 93_implementation_defined.md U8)

A `Send` has one phase or two. The transport's answers are a script, so a `Send` ends where the script fails or falls
silent, and completes where neither comes before its last phase. -/

namespace Sys2Proof.Machine

section Phase

variable {s : State} {rest : List PhaseAnswer} (d : Bool) (bs : List Byte) (code : Byte)

theorem transmit_of_ok (h : s.env.transmit = .ok :: rest) : transmit d bs code s = .done () (phaseSent d bs s) := by
  rw [transmit, h, List.headD_cons]

theorem transmit_of_fail (h : s.env.transmit = .fail :: rest) : transmit d bs code s =
    .raised (.transportFailure (phaseOf d) code) (toCtrl (brokenEvent d bs code) (phaseSent d bs s)) := by
  rw [transmit, h, List.headD_cons]

theorem transmit_of_never (h : s.env.transmit = .never :: rest) : transmit d bs code s = .stopped .transportSilent := by
  rw [transmit, h, List.headD_cons]

end Phase

/-- The state in which a phase of kind `ph` has failed, when `events` have been sent, `sent` has reached the wire and
`SEQ_PC` stands at `pc`. -/
def failedAt (pc : BitVec 5) (ph : Phase) (events : List Event) (sent : List BusEvent) (rest : List PhaseAnswer)
    (s : State) : State :=
  { s with
    seqPc := pc, dc := if ph = .payload then .data else .command, cs := .deasserted
    trace := s.trace ++ events, wire := s.wire ++ sent, env := { s.env with transmit := rest } }

/-- The phases of one `Send` call with number `i`, as `sendsPhases` lists them. -/
def callPhases (c : (Byte × List Byte) × Nat) : List (Nat × Phase × Byte) :=
  if c.1.2 = [] then [(c.2, .command, c.1.1)] else [(c.2, .command, c.1.1), (c.2, .payload, c.1.1)]

theorem callPhases_length (c : (Byte × List Byte) × Nat) : (callPhases c).length = (sentEvents c.1.1 c.1.2).length := by
  unfold callPhases sentEvents
  split <;> rfl

section Send

variable {code : Byte} {bs : List Byte} {s : State} {rest : List PhaseAnswer}

theorem sendBytes_command_fails (h : s.env.transmit = .fail :: rest) : sendBytes code bs s =
    .raised (.transportFailure .command code)
      (failedAt s.seqPc .command [.tx false [code]] [.brokenPhase code []] rest s) := by
  rw [sendBytes, transmit_of_fail false [code] code h, andThen_raised]
  simp [failedAt, phaseOf, toCtrl, brokenEvent, phaseSent, emit, h]

theorem sendBytes_payload_fails (hbs : bs ≠ []) (h : s.env.transmit = .ok :: .fail :: rest) : sendBytes code bs s =
    .raised (.transportFailure .payload code)
      (failedAt s.seqPc .payload [.tx false [code], .tx true bs] [.brokenPhase code bs] rest s) := by
  obtain ⟨b, bs, rfl⟩ := List.exists_cons_of_ne_nil hbs
  have hnext : (phaseSent false [code] s).env.transmit = .fail :: rest := by rw [phaseSent_env, h, List.tail_cons]
  rw [sendBytes, transmit_of_ok false [code] code h, andThen_done, sendPayload, transmit_of_fail true (b :: bs) code hnext,
    andThen_raised]
  simp [failedAt, phaseOf, toCtrl, brokenEvent, phaseSent, emit, h]

theorem sendBytes_command_silent (h : s.env.transmit = .never :: rest) :
    sendBytes code bs s = .stopped .transportSilent := by
  rw [sendBytes, transmit_of_never false [code] code h, andThen_stopped]

theorem sendBytes_payload_silent (hbs : bs ≠ []) (h : s.env.transmit = .ok :: .never :: rest) :
    sendBytes code bs s = .stopped .transportSilent := by
  obtain ⟨b, bs, rfl⟩ := List.exists_cons_of_ne_nil hbs
  have hnext : (phaseSent false [code] s).env.transmit = .never :: rest := by rw [phaseSent_env, h, List.tail_cons]
  rw [sendBytes, transmit_of_ok false [code] code h, andThen_done, sendPayload, transmit_of_never true (b :: bs) code hnext,
    andThen_stopped]

/-- A `Send` whose phase `k` fails ends there, its events up to that phase sent. -/
theorem sendBytes_fails {i j k : Nat} {ph : Phase} {code' : Byte}
    (hphase : (callPhases ((code, bs), i))[k]? = some (j, ph, code'))
    (hscript : s.env.transmit = List.replicate k .ok ++ .fail :: rest) :
    j = i ∧ sendBytes code bs s = .raised (.transportFailure ph code')
      (failedAt s.seqPc ph ((sentEvents code bs).take (k + 1)) [.brokenPhase code (if ph = .payload then bs else [])]
        rest s) := by
  unfold callPhases at hphase
  match k with
  | 0 =>
    obtain ⟨rfl, rfl, rfl⟩ : j = i ∧ ph = .command ∧ code' = code := by
      split at hphase <;> cases hphase <;> exact ⟨rfl, rfl, rfl⟩
    exact ⟨rfl, sendBytes_command_fails hscript⟩
  | 1 =>
    split at hphase
    · cases hphase
    · rename_i hbs
      cases hphase
      refine ⟨rfl, (sendBytes_payload_fails hbs hscript).trans ?_⟩
      rw [sentEvents, if_neg hbs, if_pos rfl]
      rfl
  | k + 2 => split at hphase <;> cases hphase

/-- A `Send` falls silent with the transport. -/
theorem sendBytes_silent {k : Nat} (hk : k < (sentEvents code bs).length)
    (hscript : s.env.transmit = List.replicate k .ok ++ .never :: rest) :
    sendBytes code bs s = .stopped .transportSilent := by
  unfold sentEvents at hk
  match k with
  | 0 => exact sendBytes_command_silent hscript
  | 1 =>
    split at hk
    · exact absurd hk (Nat.lt_irrefl 1)
    · exact sendBytes_payload_silent (by assumption) hscript
  | k + 2 =>
    split at hk <;> simp at hk

end Send

/-! Payloads from a stream (20_memory.md R61, 40_command_channel.md R110). -/

theorem gather_of_le (env : Env) (r : Ref) {a n : Nat} (h : a + n ≤ (streamOf env r).length) :
    gather env r (List.range' a n) = .ok (((streamOf env r).drop a).take n) := by
  induction n generalizing a with
  | zero => rfl
  | succ n ih =>
    have ha : a < (streamOf env r).length := by omega
    rw [List.range'_succ, gather, srcRead_of_lt ha, ih (by omega), List.drop_eq_getElem_cons ha, List.take_succ_cons,
      List.getD_eq_getElem _ _ ha]

theorem gather_of_lt (env : Env) (r : Ref) {a n : Nat} (ha : a ≤ (streamOf env r).length)
    (h : (streamOf env r).length < a + n) :
    gather env r (List.range' a n) = .error (.sourceUnderrun r (streamOf env r).length) := by
  induction n generalizing a with
  | zero => omega
  | succ n ih =>
    rw [List.range'_succ, gather]
    obtain ha | rfl := ha.lt_or_eq
    · rw [srcRead_of_lt ha, ih ha (by omega)]
    · rw [srcRead_of_ge le_rfl]

section SendFrom

variable {s : State} {code : Byte} {r : Ref} {n : Nat}

theorem sendFrom_of_le (h : n ≤ (streamOf s.env r).length) :
    sendFrom code r n s = sendBytes code ((streamOf s.env r).take n) s := by
  rw [sendFrom, interval, Nat.sub_zero, gather_of_le s.env r (by rwa [Nat.zero_add]), List.drop_zero]

theorem sendFrom_of_lt (h : (streamOf s.env r).length < n) :
    sendFrom code r n s = .raised (.sourceUnderrun r (streamOf s.env r).length) s := by
  rw [sendFrom, interval, Nat.sub_zero, gather_of_lt s.env r (Nat.zero_le _) (by rwa [Nat.zero_add])]

end SendFrom

theorem exec_send (code : Byte) (r : Ref) (n : Coord) (s : State) :
    exec (.send code r n) s = request .send (fun t => (sendFrom code r n.toNat t).answer fun _ => .ok) s := rfl

theorem exec_graytab (r : Ref) (s : State) : exec (.graytab r) s =
    request .graytab (fun t => (sendFrom (Config.cmdCode .grayTable) r 16 t).answer fun _ => .ok) s := rfl

theorem exec_colwin (a b : Coord) (s : State) : exec (.colwin a b) s =
    request .colwin (fun t => (sendColumns a.toNat b.toNat t).answer fun _ => .ok) s := rfl

theorem exec_rowwin (a b : Coord) (s : State) : exec (.rowwin a b) s =
    request .rowwin (fun t => (sendRows a.toNat b.toNat t).answer fun _ => .ok) s := rfl

/-- Settles O23: the payload is gathered before anything is sent. -/
theorem shortPayloadsRaise : Obligations.ShortPayloadsRaise := by
  refine ⟨fun s code r n hlife hshort => ?_, fun s r hlife hshort => ?_⟩
  · rw [exec_send, request_of_raised hlife (answer_of_raised (sendFrom_of_lt hshort) _), takeError_eq_raisedIn s rfl]
  · rw [exec_graytab, request_of_raised hlife (answer_of_raised (sendFrom_of_lt hshort) _), takeError_eq_raisedIn s rfl]

/-! The requests that make one Send. -/

/-- The marks a window request leaves on the wire. -/
def withMarks (i : Instr) (s : State) : State := { s with wire := s.wire ++ wireMarks i }

theorem markIf_wraps (a b : Nat) (m : BusEvent) (s : State) :
    markIf (wraps a b) m s = { s with wire := s.wire ++ if 128 ≤ a ∨ 128 ≤ b then [m] else [] } := by
  have hwraps : wraps a b = true ↔ 128 ≤ a ∨ 128 ≤ b := by
    rw [wraps, Bool.or_eq_true, decide_eq_true_eq, decide_eq_true_eq]
    rfl
  rw [markIf_eq]
  simp only [hwraps]

/-- What a request that makes one Send does, once its source bytes are there. -/
theorem exec_of_sends {i : Instr} {s : State} {code : Byte} {bs : List Byte} (hlife : s.life = .constructed)
    (hsends : sends i s = some (code, bs)) : exec i s =
      finish (((sendBytes code bs s).andThen fun _ t => .done () (withMarks i t)).answer fun _ => .ok) := by
  have hfrom (j : Instr) (hmarks : wireMarks j = []) (bs : List Byte) :
      sendBytes code bs s = (sendBytes code bs s).andThen fun _ t => .done () (withMarks j t) := by
    cases sendBytes code bs s <;> simp [withMarks, hmarks]
  cases i
  case send c r n =>
    simp only [sends, Option.ite_none_right_eq_some, Option.some.injEq, Prod.mk.injEq] at hsends
    obtain ⟨hlength, rfl, rfl⟩ := hsends
    rw [exec_send, request_constructed hlife, sendFrom_of_le hlength, ← hfrom _ rfl]
  case graytab r =>
    simp only [sends, Option.ite_none_right_eq_some, Option.some.injEq, Prod.mk.injEq] at hsends
    obtain ⟨hlength, rfl, rfl⟩ := hsends
    rw [exec_graytab, request_constructed hlife, sendFrom_of_le hlength, ← hfrom _ rfl]
  case colwin a b =>
    cases hsends
    rw [exec_colwin, request_constructed hlife, sendColumns, sendCmd]
    simp only [markIf_wraps]
    rfl
  case rowwin a b =>
    cases hsends
    rw [exec_rowwin, request_constructed hlife, sendRows, sendCmd]
    simp only [markIf_wraps]
    rfl
  case modenorm | modeinv | modeon | modeoff | sleep | wake | graydef | setcon | setbri =>
    cases hsends
    rw [← hfrom _ rfl]
    exact if_pos hlife
  all_goals cases hsends

/-- Settles O20: the Send completes, and a window request adds its mark. -/
theorem singleSendsComplete : Obligations.SingleSendsComplete := by
  intro i s code bs hlife hsends hok
  rw [exec_of_sends hlife hsends, sendBytes_ok hok, andThen_done, answer_done, finish_done]
  simp [withMarks, afterSend]

/-- Settles O21: the Send fails in its first phase or in its second, and its error is a recorded one. -/
theorem singleSendsFail : Obligations.SingleSendsFail := by
  intro i s code bs rest hlife hsends
  rw [exec_of_sends hlife hsends]
  refine ⟨fun hscript => ?_, fun hbs hscript => ?_⟩
  · rw [sendBytes_command_fails hscript, andThen_raised, answer_raised, finish_raised, takeError_eq_raisedIn _ rfl]
    rfl
  · rw [sendBytes_payload_fails hbs hscript, andThen_raised, answer_raised, finish_raised, takeError_eq_raisedIn _ rfl]
    rfl

/-- Settles O49, the pulse being all of HWRESET's body. -/
theorem hwresetPulses : Obligations.HwresetPulses := by
  intro s hlife
  rw [exec_hwreset, request_constructed hlife, finish_done]
  rfl

/-- The teardown changes nothing of what is not listed, and leaves `SEQ_PC` in its range. -/
theorem tearDown_seqPc_le (s : State) : (tearDown s).seqPc.toNat ≤ 25 := by
  have := (Config.freeSeqPc s.freeCount).isLt
  rw [tearDown, BitVec.toNat_ofNat]
  omega

/-- Settles O50: the sleep command completes or fails, and the teardown follows either way. -/
theorem deinitTearsDown : Obligations.DeinitTearsDown := by
  intro s hlife
  rw [exec_deinit, request_constructed hlife, deinitBody]
  refine ⟨fun hok => ?_, fun rest hscript => ?_⟩
  · have hsend : sendCmd .sleepOn [] s = .done () (afterSend (Config.cmdCode .sleepOn) [] s) := sendBytes_ok hok
    rw [hsend]
    refine ⟨_, rfl, tearDown_seqPc_le _, ?_⟩
    simp [afterSend, sentEvents, tearDown, release]
  · have hsend : sendCmd .sleepOn [] s = .raised _ (failedAt ..) := sendBytes_command_fails hscript
    rw [hsend]
    refine ⟨_, congrArg _ (takeError_eq_raisedIn _ rfl), tearDown_seqPc_le _, rfl⟩

end Sys2Proof.Machine

/-! ### A list of Sends (43_framebuffer.md R179, R180, 41_reset_init.md R130, R133)

FLUSH and the init program are lists of `Send` calls, each made with `SEQ_PC` at a known value. Such a list completes when
all its phases are answered `Ok`, ends at the phase that fails, and falls silent with the transport. -/

namespace Sys2Proof.Machine

/-- A `Send` call, and where `SEQ_PC` stands when it is made. -/
abbrev PlacedCall := BitVec 5 × Byte × List Byte

/-- A `Send` made with `SEQ_PC` at its place. -/
def sendAt (c : PlacedCall) (s : State) : Res Unit := sendBytes c.2.1 c.2.2 { s with seqPc := c.1 }

/-- The calls without their places. -/
def callsOf (l : List PlacedCall) : List (Byte × List Byte) := l.map Prod.snd

section Lists

variable (c : Byte × List Byte) (l : List (Byte × List Byte))

theorem sendsEvents_cons : sendsEvents (c :: l) = sentEvents c.1 c.2 ++ sendsEvents l := rfl

theorem sendsPhases_eq : sendsPhases l = (l.zipIdx 0).flatMap callPhases := rfl

end Lists

/-- The script of answers that a completed `Send` leaves. -/
theorem afterSend_transmit {code : Byte} {bs : List Byte} {s : State} {k : Nat} {l : List PhaseAnswer}
    (hk : (sentEvents code bs).length ≤ k) (hscript : s.env.transmit = List.replicate k .ok ++ l) :
    (afterSend code bs s).env.transmit = List.replicate (k - (sentEvents code bs).length) .ok ++ l := by
  rw [afterSend, hscript, List.drop_append_of_le_length (by rwa [List.length_replicate]), List.drop_replicate]

theorem transportOk_of_script {s : State} {n k : Nat} {l : List PhaseAnswer} (hn : n ≤ k)
    (hscript : s.env.transmit = List.replicate k .ok ++ l) : transportOk n s = true := by
  rw [transportOk_iff, hscript, List.take_append_of_le_length (by rwa [List.length_replicate]), List.take_replicate]
  exact fun a ha => List.eq_of_mem_replicate ha

/-- What has been sent before a failure goes before it in the trace and on the wire. -/
theorem failedAt_afterSend (pc pc' : BitVec 5) (ph : Phase) (events : List Event) (sent : List BusEvent)
    (rest : List PhaseAnswer) (code : Byte) (bs : List Byte) (s : State) :
    failedAt pc ph events sent rest (afterSend code bs { s with seqPc := pc' }) =
      failedAt pc ph (sentEvents code bs ++ events) (.command code bs :: sent) rest s := by
  simp only [failedAt, afterSend, List.append_assoc, List.singleton_append]

/-- A list of Sends ends at the phase that fails: the phases up to it sent, the calls before it on the wire with the broken
phase after them, `SEQ_PC` at its place. -/
theorem sends_fail {l : List PlacedCall} {s : State} {i k d : Nat} {ph : Phase} {code : Byte} {rest : List PhaseAnswer}
    (hphase : (((callsOf l).zipIdx i).flatMap callPhases)[k]? = some (d, ph, code))
    (hscript : s.env.transmit = List.replicate k .ok ++ .fail :: rest) :
    ∃ done c, d = i + done ∧ l[done]? = some c ∧ forEach sendAt l s = .raised (.transportFailure ph code)
      (failedAt c.1 ph ((sendsEvents (callsOf l)).take (k + 1))
        (sendsWire ((callsOf l).take done) ++ brokenAfter (callsOf l) done ph) rest s) := by
  induction l generalizing s i k with
  | nil => simp [callsOf] at hphase
  | cons c l ih =>
    rw [callsOf, List.map_cons, List.zipIdx_cons, List.flatMap_cons] at hphase
    have hlength : (callPhases (c.2, i)).length = (sentEvents c.2.1 c.2.2).length := callPhases_length _
    rw [callsOf, List.map_cons, sendsEvents_cons, forEach, sendAt]
    by_cases hk : k < (sentEvents c.2.1 c.2.2).length
    · rw [List.getElem?_append_left (hlength ▸ hk)] at hphase
      obtain ⟨rfl, hfails⟩ := sendBytes_fails (s := { s with seqPc := c.1 }) hphase hscript
      refine ⟨0, c, rfl, rfl, ?_⟩
      rw [hfails, andThen_raised, List.take_append_of_le_length hk]
      rfl
    · have hk := Nat.le_of_not_lt hk
      rw [List.getElem?_append_right (hlength ▸ hk), hlength] at hphase
      have hsent := sendBytes_ok (s := { s with seqPc := c.1 }) (transportOk_of_script hk hscript)
      obtain ⟨done, c', rfl, hc', hfails⟩ := ih hphase (afterSend_transmit (s := { s with seqPc := c.1 }) hk hscript)
      refine ⟨done + 1, c', by omega, hc', ?_⟩
      rw [hsent, andThen_done, hfails, failedAt_afterSend, ← List.take_length_add_append]
      rw [show (sentEvents c.2.1 c.2.2).length + (k - (sentEvents c.2.1 c.2.2).length + 1) = k + 1 by omega]
      rfl

/-- A list of Sends falls silent with the transport. -/
theorem sends_silent {l : List PlacedCall} {s : State} {k : Nat} {rest : List PhaseAnswer}
    (hk : k < (sendsEvents (callsOf l)).length) (hscript : s.env.transmit = List.replicate k .ok ++ .never :: rest) :
    forEach sendAt l s = .stopped .transportSilent := by
  induction l generalizing s k with
  | nil => simp [callsOf, sendsEvents] at hk
  | cons c l ih =>
    rw [callsOf, List.map_cons, sendsEvents_cons, List.length_append] at hk
    rw [forEach, sendAt]
    by_cases hfirst : k < (sentEvents c.2.1 c.2.2).length
    · rw [sendBytes_silent (s := { s with seqPc := c.1 }) hfirst hscript, andThen_stopped]
    · have hfirst := Nat.le_of_not_lt hfirst
      rw [sendBytes_ok (s := { s with seqPc := c.1 }) (transportOk_of_script hfirst hscript), andThen_done]
      refine ih (k := k - (sentEvents c.2.1 c.2.2).length) ?_ (afterSend_transmit (s := { s with seqPc := c.1 }) hfirst hscript)
      rw [callsOf]
      omega

/-- The state that a completed list of Sends leaves, when `c` is its last call. -/
def afterSends (l : List PlacedCall) (c : PlacedCall) (s : State) : State :=
  { s with
    seqPc := c.1, dc := if c.2.2 = [] then .command else .data, cs := .deasserted
    trace := s.trace ++ sendsEvents (callsOf (l ++ [c])), wire := s.wire ++ sendsWire (callsOf (l ++ [c]))
    env := { s.env with transmit := s.env.transmit.drop (sendsEvents (callsOf (l ++ [c]))).length } }

/-- A list of Sends whose phases are all answered `Ok` completes. -/
theorem sends_ok {l : List PlacedCall} {c : PlacedCall} {s : State}
    (hok : transportOk (sendsEvents (callsOf (l ++ [c]))).length s = true) :
    forEach sendAt (l ++ [c]) s = .done () (afterSends l c s) := by
  induction l generalizing s with
  | nil =>
    have hevents : sendsEvents (callsOf ([] ++ [c])) = sentEvents c.2.1 c.2.2 := List.append_nil _
    rw [hevents] at hok
    rw [List.nil_append, forEach, sendAt, sendBytes_ok (s := { s with seqPc := c.1 }) hok, andThen_done, forEach_nil]
    rw [afterSends, hevents]
    rfl
  | cons a l ih =>
    have hevents : sendsEvents (callsOf (a :: l ++ [c])) = sentEvents a.2.1 a.2.2 ++ sendsEvents (callsOf (l ++ [c])) := rfl
    rw [hevents, List.length_append] at hok
    have hsent := sendBytes_ok (s := { s with seqPc := a.1 }) (transportOk_mono hok (Nat.le_add_right _ _))
    have hrest := transportOk_after (s := { s with seqPc := a.1 }) hok le_rfl
    rw [List.cons_append, forEach, sendAt, hsent, andThen_done, ih hrest]
    simp only [afterSends, hevents, afterSend, List.append_assoc, List.length_append, List.drop_drop]
    rfl

/-! ### FLUSH -/

/-- Two continuations that agree wherever a part can complete. -/
theorem andThen_congr {α β : Type} {P : State → Prop} {r : Res α} {k k' : α → State → Res β} (h : r.Ends P)
    (hk : ∀ a t, P t → k a t = k' a t) : r.andThen k = r.andThen k' := by
  cases r with
  | done a s => exact hk a s h
  | raised e s => rfl
  | stopped f => rfl

theorem wraps_eq_false {a b : Nat} (ha : a < 128) (hb : b < 128) : wraps a b = false := by
  rw [wraps, Bool.or_eq_false_iff, decide_eq_false_iff_not, decide_eq_false_iff_not]
  exact ⟨Nat.not_le.mpr ha, Nat.not_le.mpr hb⟩

theorem andThen_unmarked (m : BusEvent) (r : Res Unit) : (r.andThen fun _ t => .done () (markIf false m t)) = r := by
  cases r <;> rfl

section Full

variable {s : State}

/-- The full column window is one Send, of the bytes of 42_window.md R166. -/
theorem sendFullColumns_eq (hpos : 1 ≤ s.pw.toNat) (hle : s.pw.toNat ≤ 128) :
    sendFullColumns s = sendBytes (Config.cmdCode .setCol) [28, BitVec.ofNat 8 (27 + s.pw.toNat)] s := by
  have hstop : colByte (s.pw.toNat - 1) = BitVec.ofNat 8 (27 + s.pw.toNat) := by
    show BitVec.ofNat 8 (28 + (s.pw.toNat - 1) % 128) = _
    rw [Nat.mod_eq_of_lt (by omega), show 28 + (s.pw.toNat - 1) = 27 + s.pw.toNat by omega]
  rw [sendFullColumns, sendColumns, wraps_eq_false (by decide) (by omega), andThen_unmarked, sendCmd, hstop]
  rfl

/-- The full row window is one Send, of the bytes of 42_window.md R166. -/
theorem sendFullRows_eq (hle : s.resY.toNat ≤ 128) :
    sendFullRows s = sendBytes (Config.cmdCode .setRow) [0, BitVec.ofNat 8 (s.resY.toNat - 1)] s := by
  have hstop : rowByte (s.resY.toNat - 1) = BitVec.ofNat 8 (s.resY.toNat - 1) := by
    show BitVec.ofNat 8 ((s.resY.toNat - 1) % 128) = _
    rw [Nat.mod_eq_of_lt (by omega)]
  rw [sendFullRows, sendRows, wraps_eq_false (by decide) (by omega), andThen_unmarked, sendCmd, hstop]
  rfl

theorem fbBytes_eq_fbPayload (s : State) : fbBytes s s.bsz.toNat = fbPayload s := by
  rw [fbBytes, fbPayload, interval, Nat.sub_zero, List.range_eq_range']
  rfl

theorem sendFb_eq (hsize : s.bsz.toNat ≤ fbSize s) : sendFb s = sendBytes (Config.cmdCode .writeRam) (fbPayload s) s := by
  rw [sendFb, withFb, if_pos hsize, fbBytes_eq_fbPayload, sendCmd]

end Full

theorem GeometryCoherent.range {s : State} (hg : GeometryCoherent s) :
    1 ≤ s.pw.toNat ∧ s.pw.toNat ≤ 128 ∧ 1 ≤ s.resY.toNat ∧ s.resY.toNat ≤ 128 := by
  obtain ⟨hok, hpw, -⟩ := hg
  obtain ⟨hx, hx', hy, hy'⟩ := (geometryOk_iff _ _).mp hok
  rw [hpw, packedWidth]
  omega

theorem GeometryCoherent.bsz_pos {s : State} (hg : GeometryCoherent s) : 0 < s.bsz.toNat := by
  obtain ⟨hpw, -, hy, -⟩ := hg.range
  rw [hg.bsz_eq]
  exact Nat.mul_pos hpw hy

theorem fbPayload_length (s : State) : (fbPayload s).length = s.bsz.toNat := by
  rw [fbPayload, List.length_map, List.length_range]

theorem GeometryCoherent.fbPayload_ne_nil {s : State} (hg : GeometryCoherent s) : fbPayload s ≠ [] :=
  List.ne_nil_of_length_pos (fbPayload_length s ▸ hg.bsz_pos)

/-- FLUSH's calls, none of which moves `SEQ_PC`. -/
def flushCalls (s : State) : List PlacedCall := (flushSends s).map fun c => (s.seqPc, c)

theorem callsOf_flushCalls (s : State) : callsOf (flushCalls s) = flushSends s := by
  rw [callsOf, flushCalls, List.map_map]
  exact List.map_id _

/-- A Send leaves what the later Sends of a FLUSH depend on. -/
theorem SendOnly.flush_eq {s t : State} (h : SendOnly s t) :
    t.seqPc = s.seqPc ∧ t.resY = s.resY ∧ t.bsz = s.bsz ∧ fbSize t = fbSize s ∧ fbPayload t = fbPayload s := by
  obtain ⟨hframe, -⟩ := h
  rw [hframe]
  exact ⟨rfl, rfl, rfl, rfl, rfl⟩

theorem sendAt_self {c : PlacedCall} {s : State} (h : s.seqPc = c.1) : sendAt c s = sendBytes c.2.1 c.2.2 s := by
  rw [sendAt, ← h]

/-- FLUSH is its three Sends. -/
theorem flushSteps_eq {s : State} (hg : GeometryCoherent s) : flushSteps s = forEach sendAt (flushCalls s) s := by
  obtain ⟨hpw, hpw', hy, hy'⟩ := hg.range
  rw [flushSteps, sendFullColumns_eq hpw hpw', flushCalls, flushSends, List.map_cons, forEach, sendAt_self rfl]
  refine andThen_congr (sendBytes_ends ..) fun _ t ht => ?_
  obtain ⟨hpc, hrows, -, -, -⟩ := ht.flush_eq
  rw [sendFullRows_eq (by rwa [hrows]), hrows, List.map_cons, forEach, sendAt_self hpc]
  refine andThen_congr (sendBytes_ends ..) fun _ u hu => ?_
  obtain ⟨hpc, -, hbsz, hsize, hpayload⟩ := (SendOnly.trans _ _ _ ht hu).flush_eq
  rw [sendFb_eq (by rw [hbsz, hsize, hg.fbSize_eq_bsz]), hpayload, List.map_cons, forEach, sendAt_self hpc]
  cases sendBytes (Config.cmdCode .writeRam) (fbPayload s) u <;> rfl

theorem exec_flush (s : State) : exec .flush s = request .flush (fun t => (flushFb t).answer fun _ => .ok) s := rfl

/-- The events of a whole FLUSH. -/
theorem sendsEvents_flushSends {s : State} (hg : GeometryCoherent s) : sendsEvents (flushSends s) =
    [.tx false [Config.cmdCode .setCol], .tx true [28, BitVec.ofNat 8 (27 + s.pw.toNat)],
     .tx false [Config.cmdCode .setRow], .tx true [0, BitVec.ofNat 8 (s.resY.toNat - 1)],
     .tx false [Config.cmdCode .writeRam], .tx true (fbPayload s)] := by
  rw [flushSends, sendsEvents_cons, sendsEvents_cons, sendsEvents_cons]
  simp only [sentEvents, if_neg hg.fbPayload_ne_nil]
  rfl

/-- Settles O32: the three Sends complete. -/
theorem flushSendsTheBuffer : Obligations.FlushSendsTheBuffer := by
  intro s hs hok
  have hg := hs.geometryCoherent
  have hevents := sendsEvents_flushSends hg
  have hlast : flushCalls s = (flushCalls s).dropLast ++ [(s.seqPc, Config.cmdCode .writeRam, fbPayload s)] := rfl
  have hcalls := callsOf_flushCalls s
  rw [hlast] at hcalls
  have hdone : flushSteps s = .done () (afterSends _ _ s) :=
    (flushSteps_eq hg).trans (hlast ▸ sends_ok (by rw [hcalls, hevents]; exact hok))
  rw [exec_flush, request_constructed hs.constructed, flushFb, hdone, onRaise_done, answer_done, finish_done, afterSends,
    hcalls, hevents, if_neg hg.fbPayload_ne_nil]
  rfl

/-- Settles O33: the three Sends end at the phase that fails, and the wire gets the mark of the broken FLUSH. -/
theorem flushEndsAtFailure : Obligations.FlushEndsAtFailure := by
  intro s k d ph code rest hs hphase hscript
  rw [sendsPhases_eq, ← callsOf_flushCalls] at hphase
  obtain ⟨done, c, rfl, hc, hfails⟩ := sends_fail hphase hscript
  have hpc : c.1 = s.seqPc := by
    obtain ⟨c', -, rfl⟩ := List.mem_map.mp (List.mem_of_getElem? hc)
    rfl
  rw [← flushSteps_eq hs.geometryCoherent, callsOf_flushCalls, hpc] at hfails
  rw [exec_flush, request_constructed hs.constructed, flushFb, hfails, onRaise_raised, answer_raised, finish_raised,
    takeError_eq_raisedIn _ rfl, Nat.zero_add]
  simp only [failedAt, toCtrl, raisedIn, List.append_assoc]

end Sys2Proof.Machine

/-! ### INIT's program (41_reset_init.md R125 to R135)

Once the geometry is latched every entry of the program is one Send of known bytes, but for the clear, which leaves a fresh
buffer as it is. So the program is a list of placed Sends, those of `initEntries`. -/

namespace Sys2Proof.Machine

/-- The geometry is latched and the buffer is as allocated. -/
structure Latched (x y : Coord) (s : State) : Prop where
  resY : s.resY = y
  pw : s.pw = BitVec.ofNat 16 (packedWidth x)
  bsz : s.bsz = BitVec.ofNat 32 (bufferSize x y)
  fb : s.fb = some (Memory.fresh (bufferSize x y))

theorem Latched.of_sendOnly {x y : Coord} {s t : State} (h : Latched x y s) (hst : SendOnly s t) : Latched x y t := by
  obtain ⟨hframe, -⟩ := hst
  rw [hframe]
  exact ⟨h.resY, h.pw, h.bsz, h.fb⟩

/-- The Send of a program entry for a geometry; the clear makes none (41_reset_init.md R130). -/
def entryCall (x y : Nat) : Entry → Option (Byte × List Byte)
  | .send c (.const bs) => some (Config.cmdCode c, bs)
  | .send c .muxRatio => some (Config.cmdCode c, [BitVec.ofNat 8 (y - 1)])
  | .fullColumns => some (Config.cmdCode .setCol, [28, BitVec.ofNat 8 (27 + (x + 1) / 2)])
  | .fullRows => some (Config.cmdCode .setRow, [0, BitVec.ofNat 8 (y - 1)])
  | .clear => none
  | .writeBuffer => some (Config.cmdCode .writeRam, List.replicate ((x + 1) / 2 * y) 0)

section Entry

variable {x y : Coord} {s : State} (hs : Latched x y s) (hok : geometryOk x y = true)
include hs hok

theorem Latched.pw_toNat : s.pw.toNat = (x.toNat + 1) / 2 := by
  obtain ⟨-, hpw, -⟩ := latch_geometryCoherent s hok
  rw [hs.pw]
  exact hpw

theorem Latched.bsz_toNat : s.bsz.toNat = (x.toNat + 1) / 2 * y.toNat := by
  obtain ⟨-, -, hbsz, -⟩ := latch_geometryCoherent s hok
  rw [hs.bsz]
  exact hbsz

/-- The clear colour is what a fresh buffer reads as (30_encoding.md R84, log 10, 28). -/
theorem Latched.fill : fillFb Config.initClearColor s = .done () s := by
  have hbyte : fillByte Config.initClearColor = unlistedByte := by decide
  have hsize : s.bsz.toNat ≤ fbSize s := by
    rw [hs.bsz_toNat hok, fbSize_eq hs.fb]
    exact le_rfl
  rw [fillFb, withFb, if_pos hsize, hs.fb, Option.map_some, Memory.fill, hbyte, cellsFill, if_pos rfl]
  show Res.done () { s with fb := some (Memory.fresh (bufferSize x y)) } = _
  rw [← hs.fb]

/-- The buffer sent by the program is all zeros. -/
theorem Latched.payload : fbPayload s = List.replicate ((x.toNat + 1) / 2 * y.toNat) 0 := by
  rw [fbPayload, hs.bsz_toNat hok, List.eq_replicate_iff, List.length_map, List.length_range]
  refine ⟨rfl, fun b hb => ?_⟩
  obtain ⟨j, -, rfl⟩ := List.mem_map.mp hb
  rw [readFb, hs.fb, Option.bind_some, Memory.read]
  split <;> rfl

/-- What an entry does once the geometry is latched. -/
theorem runEntry_of_call {e : Entry} {c : Byte × List Byte} (he : entryCall x.toNat y.toNat e = some c) :
    runEntry e s = sendBytes c.1 c.2 s := by
  obtain ⟨hx, hx', hy, hy'⟩ := (geometryOk_iff x y).mp hok
  have hpw := hs.pw_toNat hok
  cases e with
  | send c p =>
    cases p with
    | const bs =>
      cases he
      rfl
    | muxRatio =>
      cases he
      rw [runEntry, entryPayload, hs.resY, sendCmd]
  | fullColumns =>
    cases he
    rw [runEntry, sendFullColumns_eq (by omega) (by omega), hpw]
  | fullRows =>
    cases he
    rw [runEntry, sendFullRows_eq (by rwa [hs.resY]), hs.resY]
  | clear => cases he
  | writeBuffer =>
    cases he
    have hsize : s.bsz.toNat ≤ fbSize s := by
      rw [hs.bsz_toNat hok, fbSize_eq hs.fb]
      exact le_rfl
    rw [runEntry, sendFb_eq hsize, hs.payload hok]

theorem runEntry_of_no_call {e : Entry} (he : entryCall x.toNat y.toNat e = none) : runEntry e s = .done () s := by
  cases e with
  | clear => exact hs.fill hok
  | send c p => cases p <;> cases he
  | fullColumns | fullRows | writeBuffer => cases he

end Entry

/-- The placed Sends of the entries from number `n` on. -/
def placedCalls (x y n : Nat) : List Entry → List PlacedCall
  | [] => []
  | e :: es => ((entryCall x y e).toList.map fun c => (BitVec.ofNat 5 n, c)) ++ placedCalls x y (n + 1) es

/-- The end of the program: `SEQ_PC` past its last entry. -/
def withSeqPc (n : Nat) (s : State) : State := { s with seqPc := BitVec.ofNat 5 n }

/-- Placed Sends do not depend on where `SEQ_PC` stood before them, nor does what sets it afterwards. -/
theorem sends_advance (l : List PlacedCall) (n : Nat) (s : State) :
    ((forEach sendAt l (advance s)).andThen fun _ t => .done () (withSeqPc n t)) =
      (forEach sendAt l s).andThen fun _ t => .done () (withSeqPc n t) := by
  cases l <;> rfl

/-- The entries of the program, run one by one, make their placed Sends. -/
theorem runEntries_eq {x y : Coord} (hok : geometryOk x y = true) (es : List Entry) {n : Nat} {s : State}
    (hs : Latched x y s) (hpc : s.seqPc = BitVec.ofNat 5 n) : runEntries es s =
      (forEach sendAt (placedCalls x.toNat y.toNat n es) s).andThen fun _ t => .done () (withSeqPc (n + es.length) t) := by
  induction es generalizing n s with
  | nil =>
    rw [runEntries, placedCalls, forEach_nil, andThen_done, withSeqPc, List.length_nil, Nat.add_zero, ← hpc]
  | cons e es ih =>
    have hnext {t : State} (ht : Latched x y t) (hpc : t.seqPc = BitVec.ofNat 5 n) : runEntries es (advance t) =
        (forEach sendAt (placedCalls x.toNat y.toNat (n + 1) es) t).andThen
          fun _ u => .done () (withSeqPc (n + (es.length + 1)) u) := by
      have hpc' : (advance t).seqPc = BitVec.ofNat 5 (n + 1) := by
        rw [advance, hpc, BitVec.ofNat_add]
        rfl
      have hadvance : Latched x y (advance t) := ⟨ht.resY, ht.pw, ht.bsz, ht.fb⟩
      rw [ih hadvance hpc', sends_advance, show n + 1 + es.length = n + (es.length + 1) by omega]
    rw [runEntries, placedCalls, List.length_cons]
    cases he : entryCall x.toNat y.toNat e with
    | none =>
      rw [runEntry_of_no_call hs hok he, andThen_done]
      exact hnext hs hpc
    | some c =>
      rw [runEntry_of_call hs hok he, forEach_append, andThen_assoc]
      show _ = (forEach sendAt [(BitVec.ofNat 5 n, c)] s).andThen _
      rw [forEach, sendAt_self hpc, andThen_assoc]
      refine andThen_congr (sendBytes_ends ..) fun _ t ht => ?_
      obtain ⟨hpc', -⟩ := ht.flush_eq
      exact hnext (hs.of_sendOnly ht) (hpc'.trans hpc)

/-- The Sends of the init program in their places. -/
def initCalls (x y : Nat) : List PlacedCall := (initEntries x y).map fun e => (BitVec.ofNat 5 e.1, e.2)

theorem placedCalls_initProgram (x y : Nat) : placedCalls x y 0 initProgram = initCalls x y := rfl

theorem callsOf_initCalls (x y : Nat) : callsOf (initCalls x y) = initSends x y := by
  rw [callsOf, initCalls, List.map_map]
  rfl

/-- The state in which INIT's program begins (41_reset_init.md R125). -/
abbrev atProgram (x y : Coord) (s : State) : State :=
  programState x y 0 (answersUsed s.env.allocate.tail s.env.attach.tail s)

/-- INIT past its checks and acquisitions is its placed Sends. -/
theorem runProgram_eq {x y : Coord} (s : State) (hok : geometryOk x y = true) :
    runProgram (resetPulse (configurePins (latch x y s))) =
      (forEach sendAt (initCalls x.toNat y.toNat) (programState x y 0 s)).andThen
        fun _ t => .done () (withSeqPc 25 t) := by
  have hlatched : Latched x y (programState x y 0 s) := ⟨rfl, rfl, rfl, rfl⟩
  rw [← placedCalls_initProgram]
  exact runEntries_eq hok initProgram hlatched rfl

section Init

variable {s : State} {x y : Coord} (tr p : Ref)

theorem exec_init_of_mayInit (hmay : MayInit s x y) (hallocate : allocateOk s) (hattach : attachOk s) :
    exec (.init tr p x y) s =
      finish (construct (latch x y (answersUsed s.env.allocate.tail s.env.attach.tail s))) := by
  obtain ⟨hlife, hrange⟩ := hmay
  rw [exec_init_of_geometryOk tr p hlife ((geometryOk_iff x y).mpr hrange), acquire_of_ok x y hallocate hattach]
  rfl

/-- The program completes: INIT is Constructed. -/
theorem exec_init_of_done {t : State} (hmay : MayInit s x y) (hallocate : allocateOk s) (hattach : attachOk s)
    (h : forEach sendAt (initCalls x.toNat y.toNat) (atProgram x y s) = .done () t) :
    exec (.init tr p x y) s = .next { withSeqPc 25 t with life := .constructed, result := .ok } := by
  rw [exec_init_of_mayInit tr p hmay hallocate hattach, construct, runProgram_eq _ ((geometryOk_iff x y).mpr hmay.2), h,
    andThen_done, finish_done]

/-- The program fails: INIT is given up. -/
theorem exec_init_of_raised {t : State} {e : Err} (hmay : MayInit s x y) (hallocate : allocateOk s)
    (hattach : attachOk s) (h : forEach sendAt (initCalls x.toNat y.toNat) (atProgram x y s) = .raised e t) :
    exec (.init tr p x y) s = .next (takeError e (abandon t)) := by
  rw [exec_init_of_mayInit tr p hmay hallocate hattach, construct, runProgram_eq _ ((geometryOk_iff x y).mpr hmay.2), h,
    andThen_raised, finish_raised]

/-- The program stops: INIT stops. -/
theorem exec_init_of_stopped {f : Fault} (hmay : MayInit s x y) (hallocate : allocateOk s) (hattach : attachOk s)
    (h : forEach sendAt (initCalls x.toNat y.toNat) (atProgram x y s) = .stopped f) :
    exec (.init tr p x y) s = .fault f := by
  rw [exec_init_of_mayInit tr p hmay hallocate hattach, construct, runProgram_eq _ ((geometryOk_iff x y).mpr hmay.2), h,
    andThen_stopped, finish_stopped]

end Init

/-- The init program has 43 phases: its buffer is not empty. -/
theorem initEvents_length {x y : Nat} (hx : 1 ≤ x) (hy : 1 ≤ y) : (sendsEvents (initSends x y)).length = 43 := by
  have hsize : ¬(x = 0 ∨ y = 0) := by omega
  simp [sendsEvents, initSends, initEntries, sentEvents, hsize]

theorem initPrelude_eq : initPrelude = .dircfg :: resetEvents := rfl

/-- Settles O46: the program's placed Sends complete, the last of them NORMAL without payload. -/
theorem initConstructs : Obligations.InitConstructs := by
  intro s tr p x y hmay hallocate hattach hok
  obtain ⟨-, hx, -, hy, -⟩ := id hmay
  have hlength := initEvents_length hx hy
  have hlast : initCalls x.toNat y.toNat =
      (initCalls x.toNat y.toNat).dropLast ++ [(24, Config.cmdCode .normal, [])] := rfl
  have hcalls := callsOf_initCalls x.toNat y.toNat
  rw [hlast] at hcalls
  have hdone := sends_ok (s := atProgram x y s) (by rw [hcalls, hlength]; exact hok)
  rw [← hlast] at hdone
  refine ⟨_, exec_init_of_done tr p hmay hallocate hattach hdone, ?_, hlength, fun j => ?_⟩
  · rw [afterSends, hcalls, hlength]
    simp [withSeqPc, programState, answersUsed, initPrelude_eq, envAfterInit, packedWidth, bufferSize]
  · show (Memory.fresh (bufferSize x y)).read j = _
    rfl

/-- Settles O47: the program's placed Sends end at the phase that fails, `SEQ_PC` in the place of its call, and what was
held is released. -/
theorem initFailsAtomically : Obligations.InitFailsAtomically := by
  intro s tr p x y k d ph code rest hmay hallocate hattach hphase hscript
  rw [sendsPhases_eq, ← callsOf_initCalls] at hphase
  obtain ⟨done, c, rfl, hc, hfails⟩ := sends_fail (s := atProgram x y s) hphase hscript
  rw [initCalls, List.getElem?_map, Option.map_eq_some_iff] at hc
  obtain ⟨entry, hentry, rfl⟩ := hc
  rw [Nat.zero_add]
  rw [callsOf_initCalls] at hfails
  refine ⟨_, entry.1, exec_init_of_raised tr p hmay hallocate hattach hfails, by rw [hentry, Option.map_some], ?_⟩
  rw [takeError_eq_raisedIn _ rfl]
  simp [raisedIn, abandon, release, toCtrl, failedAt, programState, answersUsed, initPrelude_eq, envAfterInit, faultRecord]

/-- Settles O22: each request that sends is a list of Sends, which falls silent with the transport. -/
theorem silentTransportStops : Obligations.SilentTransportStops := by
  refine ⟨fun i s code bs rest hlife hsends => ?single, fun s k rest hs hk hscript => ?flush,
    fun s rest hlife hscript => ?deinit, fun s tr p x y k rest hmay hallocate hattach hk hscript => ?init⟩
  case single =>
    rw [exec_of_sends hlife hsends]
    refine ⟨fun hscript => ?_, fun hbs hscript => ?_⟩
    · rw [sendBytes_command_silent hscript, andThen_stopped, answer_stopped, finish_stopped]
    · rw [sendBytes_payload_silent hbs hscript, andThen_stopped, answer_stopped, finish_stopped]
  case flush =>
    have hg := hs.geometryCoherent
    have hsilent : flushSteps s = .stopped .transportSilent := by
      rw [flushSteps_eq hg]
      refine sends_silent ?_ hscript
      rw [callsOf_flushCalls, sendsEvents_flushSends hg]
      exact hk
    rw [exec_flush, request_constructed hs.constructed, flushFb, hsilent, onRaise_stopped, answer_stopped, finish_stopped]
  case deinit =>
    have hsilent : sendCmd .sleepOn [] s = .stopped .transportSilent := sendBytes_command_silent hscript
    rw [exec_deinit, request_constructed hlife, deinitBody, hsilent, finish_stopped]
  case init =>
    obtain ⟨-, hx, -, hy, -⟩ := id hmay
    refine exec_init_of_stopped tr p hmay hallocate hattach (sends_silent ?_ hscript)
    rw [callsOf_initCalls, initEvents_length hx hy]
    exact hk

end Sys2Proof.Machine

/-! ### The controller's registers (10_state.md R33, R34, 70_reset_and_hazards.md R263, R273)

Every register command is one of two operations, `ctrlConfigure` or `ctrlAdjust`: stated asleep or awake, and a free value in
the other case. -/

namespace Sys2Proof.Machine

section Registers

variable {α : Type} {s : State} (v : α) (read : CtrlRegs → α) (set : α → CtrlRegs → CtrlRegs)

theorem ctrlConfigure_asleep (h : s.ctrl.regs.asleep = true) : ctrlConfigure v read set s = configured s (set v) := by
  simp only [ctrlConfigure, ctrlSet, ctrlRegs, ctrlOnWaking, configured, h, if_true]

theorem ctrlConfigure_awake (h : s.ctrl.regs.asleep = false) :
    ctrlConfigure v read set s = withRegs s (set (read (Config.freeRegs s.freeCount)) s.ctrl.regs) := by
  simp only [ctrlConfigure, ctrlSet, ctrlRegs, ctrlOnWaking, withRegs, h, Bool.false_eq_true, if_false]

theorem ctrlAdjust_awake (h : s.ctrl.regs.asleep = false) :
    ctrlAdjust v read set s = withRegs s (set v s.ctrl.regs) := by
  simp only [ctrlAdjust, ctrlSet, ctrlRegs, withRegs, h, Bool.not_false, if_true]

theorem ctrlAdjust_asleep (h : s.ctrl.regs.asleep = true) :
    ctrlAdjust v read set s = withRegs s (set (read (Config.freeRegs s.freeCount)) s.ctrl.regs) := by
  simp only [ctrlAdjust, ctrlSet, ctrlRegs, withRegs, h, Bool.not_true, Bool.false_eq_true, if_false]

end Registers

/-! The commands by their operations. -/

section Exec

variable (s : State)

theorem exec_cmdClock (v : Byte) : exec (.cmdClock v) s =
    .next (ctrlConfigure v (·.clock) (fun a r => { r with clock := a }) s) := rfl

theorem exec_cmdFuncsel (v : Byte) : exec (.cmdFuncsel v) s =
    .next (ctrlConfigure v (·.funcsel) (fun a r => { r with funcsel := a }) s) := rfl

theorem exec_cmdPrechargeV (v : Byte) : exec (.cmdPrechargeV v) s =
    .next (ctrlConfigure v (·.prechargeV) (fun a r => { r with prechargeV := a }) s) := rfl

theorem exec_cmdPrecharge2 (v : Byte) : exec (.cmdPrecharge2 v) s =
    .next (ctrlConfigure v (·.precharge2) (fun a r => { r with precharge2 := a }) s) := rfl

theorem exec_cmdVcomh (v : Byte) : exec (.cmdVcomh v) s =
    .next (ctrlConfigure v (·.vcomh) (fun a r => { r with vcomh := a }) s) := rfl

theorem exec_cmdMux (v : Byte) : exec (.cmdMux v) s =
    .next (ctrlConfigure v (·.mux) (fun a r => { r with mux := a }) s) := rfl

theorem exec_cmdOffset (v : Byte) : exec (.cmdOffset v) s =
    .next (ctrlConfigure v (·.offset) (fun a r => { r with offset := a }) s) := rfl

theorem exec_cmdStartline (v : Byte) : exec (.cmdStartline v) s =
    .next (ctrlConfigure v (·.startline) (fun a r => { r with startline := a }) s) := rfl

theorem exec_cmdExitPartial : exec .cmdExitPartial s =
    .next (ctrlConfigure false (·.partialMode) (fun a r => { r with partialMode := a }) s) := rfl

theorem exec_cmdEnh1 {p : List Byte} (hp : p.length = 2) : exec (.cmdEnh1 p) s =
    .next (ctrlConfigure p (·.enh1) (fun a r => { r with enh1 := a }) s) := if_pos hp

theorem exec_cmdEnh2 {p : List Byte} (hp : p.length = 2) : exec (.cmdEnh2 p) s =
    .next (ctrlConfigure p (·.enh2) (fun a r => { r with enh2 := a }) s) := if_pos hp

theorem exec_cmdRemap {p : List Byte} (hp : p.length = 2) : exec (.cmdRemap p) s =
    .next (ctrlConfigure p (·.remap) (fun a r => { r with remap := a }) s) := if_pos hp

theorem exec_cmdContrast (v : Byte) : exec (.cmdContrast v) s =
    .next (ctrlAdjust v (·.contrast) (fun a r => { r with contrast := a }) s) := rfl

theorem exec_cmdBrightness (v : Byte) : exec (.cmdBrightness v) s =
    .next (ctrlAdjust v (·.brightness) (fun a r => { r with brightness := a }) s) := rfl

theorem exec_cmdGrayDefault : exec .cmdGrayDefault s =
    .next (ctrlAdjust .default (·.gray) (fun a r => { r with gray := a }) s) := rfl

theorem exec_cmdNormal : exec .cmdNormal s =
    .next (ctrlAdjust .normal (·.mode) (fun a r => { r with mode := a }) s) := rfl

theorem exec_cmdInvert : exec .cmdInvert s =
    .next (ctrlAdjust .inverted (·.mode) (fun a r => { r with mode := a }) s) := rfl

theorem exec_cmdAllOn : exec .cmdAllOn s =
    .next (ctrlAdjust .allOn (·.mode) (fun a r => { r with mode := a }) s) := rfl

theorem exec_cmdAllOff : exec .cmdAllOff s =
    .next (ctrlAdjust .allOff (·.mode) (fun a r => { r with mode := a }) s) := rfl

theorem exec_cmdGrayTable {p : List Byte} (hp : p.length = 16) : exec (.cmdGrayTable p) s =
    .next (ctrlAdjust (.table p) (·.gray) (fun a r => { r with gray := a }) s) := if_pos hp

theorem exec_cmdUnlock (v : Byte) : exec (.cmdUnlock v) s = .next (withRegs s { s.ctrl.regs with unlock := v }) := rfl

theorem exec_cmdSleepOn : exec .cmdSleepOn s = .next (ctrlSleep s) := rfl

theorem exec_cmdSleepOff : exec .cmdSleepOff s = .next (ctrlWake s) := rfl

theorem exec_cmdSetCol (a b : Byte) : exec (.cmdSetCol a b) s = .next (ctrlWindow
    { s.ctrl.window with colStart := a, colStop := b } false s.ctrl.rowsBarred .freshColumn s) := rfl

theorem exec_cmdSetRow (a b : Byte) : exec (.cmdSetRow a b) s = .next (ctrlWindow
    { s.ctrl.window with rowStart := a, rowStop := b } s.ctrl.columnsBarred false
    (if s.ctrl.pointer = .freshColumn then .atStart else .anywhere) s) := rfl

theorem exec_cmdWriteRam {p : List Byte} (hp : p ≠ []) : exec (.cmdWriteRam p) s = .next (ctrlStore p s) :=
  if_neg fun h => hp (List.length_eq_zero_iff.mp h)

end Exec

/-- Settles O51: each is `ctrlConfigure` on a sleeping controller. -/
theorem configurationCommandsWrite : Obligations.ConfigurationCommandsWrite := by
  intro s v p h
  rw [exec_cmdClock, exec_cmdFuncsel, exec_cmdPrechargeV, exec_cmdPrecharge2, exec_cmdVcomh, exec_cmdMux,
    exec_cmdExitPartial, exec_cmdOffset, exec_cmdStartline]
  simp only [ctrlConfigure_asleep _ _ _ h, true_and]
  intro hp
  rw [exec_cmdEnh1 s hp, exec_cmdEnh2 s hp, exec_cmdRemap s hp]
  simp only [ctrlConfigure_asleep _ _ _ h, true_and]

/-- Settles O52: each is `ctrlConfigure` on a waking controller, where its own register is free. -/
theorem configurationCommandsAwake : Obligations.ConfigurationCommandsAwake := by
  intro s v p h
  rw [exec_cmdClock, exec_cmdFuncsel, exec_cmdPrechargeV, exec_cmdPrecharge2, exec_cmdVcomh, exec_cmdMux,
    exec_cmdExitPartial, exec_cmdOffset, exec_cmdStartline]
  simp only [ctrlConfigure_awake _ _ _ h]
  refine ⟨⟨_, rfl⟩, ⟨_, rfl⟩, ⟨_, rfl⟩, ⟨_, rfl⟩, ⟨_, rfl⟩, ⟨_, rfl⟩, ⟨_, rfl⟩, ⟨_, rfl⟩, ⟨_, rfl⟩, fun hp => ?_⟩
  rw [exec_cmdEnh1 s hp, exec_cmdEnh2 s hp, exec_cmdRemap s hp]
  simp only [ctrlConfigure_awake _ _ _ h]
  exact ⟨⟨_, rfl⟩, ⟨_, rfl⟩, ⟨_, rfl⟩⟩

/-- Settles O53: each is `ctrlAdjust` on a waking controller. -/
theorem displayCommandsWrite : Obligations.DisplayCommandsWrite := by
  intro s v p h
  rw [exec_cmdGrayDefault, exec_cmdContrast, exec_cmdBrightness, exec_cmdNormal, exec_cmdInvert, exec_cmdAllOn,
    exec_cmdAllOff]
  simp only [ctrlAdjust_awake _ _ _ h, true_and]
  intro hp
  rw [exec_cmdGrayTable s hp, ctrlAdjust_awake _ _ _ h]

/-- Settles O54: each is `ctrlAdjust` on a sleeping controller, where its own register is free. -/
theorem displayCommandsAsleep : Obligations.DisplayCommandsAsleep := by
  intro s v p h
  rw [exec_cmdGrayDefault, exec_cmdContrast, exec_cmdBrightness, exec_cmdNormal, exec_cmdInvert, exec_cmdAllOn,
    exec_cmdAllOff]
  simp only [ctrlAdjust_asleep _ _ _ h]
  refine ⟨⟨_, rfl⟩, ⟨_, rfl⟩, ⟨_, rfl⟩, ⟨_, rfl⟩, ⟨_, rfl⟩, ⟨_, rfl⟩, ⟨_, rfl⟩, fun hp => ?_⟩
  rw [exec_cmdGrayTable s hp, ctrlAdjust_asleep _ _ _ h]
  exact ⟨_, rfl⟩

/-- Settles O55: the two sleep commands by the sleep state they find. -/
theorem lockAndSleepCommands : Obligations.LockAndSleepCommands := by
  intro s v
  rw [exec_cmdSleepOn, exec_cmdSleepOff]
  refine ⟨rfl, fun h => ?sleepsOn, fun h => ⟨_, rfl⟩, fun h => ?staysAwake, fun h => ?wakes⟩
  case sleepsOn => simp [ctrlSleep, ctrlSet, ctrlRegs, ctrlOnWaking, withRegs, h]
  case staysAwake => simp [ctrlWake, withRegs, h]
  case wakes => exact ⟨[], by simp [ctrlWake, h]⟩

/-! ### The window and the memory (20_memory.md R72, R76, R77, 93_implementation_defined.md U6, U7) -/

/-- A memory write has at least one byte. -/
theorem writeRam_wellFormed_iff (p : List Byte) : (Instr.cmdWriteRam p).wellFormed = true ↔ p ≠ [] := by
  cases p with
  | nil => exact ⟨fun h => absurd h (by decide), fun h => absurd rfl h⟩
  | cons b p => exact ⟨fun _ => List.cons_ne_nil b p, fun _ => rfl⟩

/-- Every command of the right length but the two window commands leaves the window. -/
theorem command_keeps_window {i : Instr} {s t : State} (hop : requestOp i = none) (hnext : exec i s = .next t)
    (hwf : i.wellFormed = true) (hcol : ∀ a b, i ≠ .cmdSetCol a b) (hrow : ∀ a b, i ≠ .cmdSetRow a b) :
    t.ctrl.window = s.ctrl.window := by
  cases i <;> cases hop
  case cmdSetCol a b => exact absurd rfl (hcol a b)
  case cmdSetRow a b => exact absurd rfl (hrow a b)
  case cmdEnh1 => cases (exec_cmdEnh1 s (eq_of_beq hwf)).symm.trans hnext; rfl
  case cmdEnh2 => cases (exec_cmdEnh2 s (eq_of_beq hwf)).symm.trans hnext; rfl
  case cmdRemap => cases (exec_cmdRemap s (eq_of_beq hwf)).symm.trans hnext; rfl
  case cmdGrayTable => cases (exec_cmdGrayTable s (eq_of_beq hwf)).symm.trans hnext; rfl
  case cmdWriteRam p =>
    cases (exec_cmdWriteRam s ((writeRam_wellFormed_iff p).mp hwf)).symm.trans hnext
    rfl
  all_goals
    cases hnext
    rfl

/-- Settles O56: a window command sets its half, a request leaves the controller, and every other command of the right length
leaves the window. -/
theorem windowIsTheLastReceived : Obligations.WindowIsTheLastReceived := by
  refine ⟨fun s a b => ⟨⟨_, exec_cmdSetCol s a b, rfl, rfl, rfl, rfl⟩, ⟨_, exec_cmdSetRow s a b, rfl, rfl, rfl, rfl⟩⟩,
    fun i s t hnext hwf hcol hrow => ?others⟩
  by_cases hop : requestOp i = none
  · exact command_keeps_window hop hnext hwf hcol hrow
  · obtain ⟨hctrl, -⟩ := requestsLeaveController i s t hop hnext
    rw [hctrl]

/-! Addresses of a window. -/

theorem gramKey_div {row col : Nat} (hcol : col < 256) : gramKey row col / 256 = row := by
  rw [gramKey]
  omega

theorem gramKey_mod {row col : Nat} (hcol : col < 256) : gramKey row col % 256 = col := by
  rw [gramKey]
  omega

/-- A window covers an address when it covers its row and its column. -/
theorem covers_gramKey {w : Window} {row col : Nat} (hcol : col < 256) : w.covers (gramKey row col) = true ↔
    w.rowStart.toNat ≤ row ∧ row ≤ w.rowStop.toNat ∧ w.colStart.toNat ≤ col ∧ col ≤ w.colStop.toNat := by
  rw [Window.covers, gramKey_div hcol, gramKey_mod hcol]
  simp only [Bool.and_eq_true, decide_eq_true_eq, and_assoc]

/-- The address of byte `j` of a payload that fills the window (20_memory.md R77). -/
def fillKey (w : Window) (j : Nat) : Nat := gramKey (w.rowStart.toNat + j / w.wide) (w.colStart.toNat + j % w.wide)

section Window

variable {w : Window} {j : Nat}

/-- The position of a byte that the window holds. -/
theorem position_in_window (hj : j < w.wide * w.high) :
    j / w.wide < w.high ∧ j % w.wide < w.wide ∧ w.colStart.toNat + j % w.wide < 256 := by
  have hwide : 0 < w.wide := Nat.pos_of_mul_pos_right (Nat.zero_lt_of_lt hj)
  have hcolumn : j % w.wide < w.wide := Nat.mod_lt _ hwide
  refine ⟨Nat.div_lt_of_lt_mul hj, hcolumn, ?_⟩
  have := w.colStop.isLt
  have hdef : w.wide = w.colStop.toNat + 1 - w.colStart.toNat := rfl
  omega

/-- A byte that the window holds lands inside it. -/
theorem covers_fillKey (hj : j < w.wide * w.high) : w.covers (fillKey w j) = true := by
  obtain ⟨hrow, hcolumn, hbyte⟩ := position_in_window hj
  have hwide : w.wide = w.colStop.toNat + 1 - w.colStart.toNat := rfl
  have hhigh : w.high = w.rowStop.toNat + 1 - w.rowStart.toNat := rfl
  rw [fillKey, covers_gramKey hbyte]
  generalize j / w.wide = row at hrow ⊢
  omega

/-- Two bytes that the window holds land at different addresses. -/
theorem fillKey_inj {k : Nat} (hj : j < w.wide * w.high) (hk : k < w.wide * w.high) (h : fillKey w j = fillKey w k) :
    j = k := by
  obtain ⟨-, -, hj⟩ := position_in_window hj
  obtain ⟨-, -, hk⟩ := position_in_window hk
  have hrow : w.rowStart.toNat + j / w.wide = w.rowStart.toNat + k / w.wide := by
    rw [← gramKey_div (row := w.rowStart.toNat + j / w.wide) hj, ← gramKey_div (row := w.rowStart.toNat + k / w.wide) hk]
    exact congrArg (· / 256) h
  have hcolumn : w.colStart.toNat + j % w.wide = w.colStart.toNat + k % w.wide := by
    rw [← gramKey_mod (row := w.rowStart.toNat + j / w.wide) hj, ← gramKey_mod (row := w.rowStart.toNat + k / w.wide) hk]
    exact congrArg (· % 256) h
  rw [← Nat.div_add_mod j w.wide, ← Nat.div_add_mod k w.wide, Nat.add_left_cancel hrow, Nat.add_left_cancel hcolumn]

/-- A fill writes the bytes in order, each at its address. -/
theorem gramFill_eq (p : List Byte) (cells : List Host.Cell) : gramFill w p cells =
    p.zipIdx.foldr (fun bj acc => gramWrite (fillKey w bj.2) bj.1 acc) (gramForget w cells) := rfl

variable {p : List Byte} (cells : List Host.Cell) (hp : p.length ≤ w.wide * w.high)
include hp

/-- A fill puts byte `j` of the payload at its address. -/
theorem gramRead_fill_inside (hj : j < p.length) : gramRead (fillKey w j) (gramFill w p cells) = p[j]? := by
  rw [gramFill_eq, gramRead_writes (fun bj : Byte × Nat => fillKey w bj.2) (fun bj => bj.1)]
  have hmem : (p[j], j) ∈ p.zipIdx := List.mem_zipIdx_iff_getElem?.mpr (List.getElem?_eq_getElem hj)
  cases hfind : p.zipIdx.find? fun bj => decide (fillKey w j = fillKey w bj.2) with
  | none =>
    have hne := List.find?_eq_none.mp hfind _ hmem
    simp at hne
  | some bj =>
    have hbj := List.mem_of_find?_eq_some hfind
    have hlt : bj.2 < p.length := by
      have := List.snd_lt_of_mem_zipIdx hbj
      omega
    have hkey := of_decide_eq_true (List.find?_some (p := fun bj : Byte × Nat => decide (fillKey w j = fillKey w bj.2)) hfind)
    rw [fillKey_inj (hj.trans_le hp) (hlt.trans_le hp) hkey]
    exact (List.mem_zipIdx_iff_getElem?.mp hbj).symm

/-- A fill leaves every address outside the window. -/
theorem gramRead_fill_outside {a : Nat} (ha : w.covers a = false) :
    gramRead a (gramFill w p cells) = gramRead a cells := by
  rw [gramFill_eq, gramRead_writes (fun bj : Byte × Nat => fillKey w bj.2) (fun bj => bj.1)]
  have hnone : p.zipIdx.find? (fun bj => decide (a = fillKey w bj.2)) = none := by
    refine List.find?_eq_none.mpr fun bj hbj hkey => ?_
    have hlt : bj.2 < p.length := by
      have := List.snd_lt_of_mem_zipIdx hbj
      omega
    rw [of_decide_eq_true hkey, covers_fillKey (hlt.trans_le hp)] at ha
    cases ha
  rw [hnone, gramRead_forget, ha]
  rfl

end Window

/-- The statements' known window is the model's stated one. -/
theorem windowStated_of_knownWindow {c : Ctrl} (h : c.KnownWindow) : c.windowStated = true := by
  obtain ⟨hcol, hcols, hcol', hrows, hrow', hbarred, hbarred'⟩ := h
  simp only [Ctrl.windowStated, Bool.and_eq_true, decide_eq_true_eq, Bool.not_eq_true']
  exact ⟨⟨⟨⟨⟨⟨hcol, hcols⟩, Nat.lt_succ_of_le hcol'⟩, hrows⟩, Nat.lt_succ_of_le hrow'⟩, hbarred⟩, hbarred'⟩

/-- A memory write that a known window can hold: an exact fill of a fresh window, or the window's bytes forgotten. -/
theorem gramAfterWrite_eq {c : Ctrl} {p : List Byte} (h : c.KnownWindow) (hp : p.length ≤ c.window.wide * c.window.high) :
    gramAfterWrite c p =
      if c.pointer = .atStart ∧ c.regs.asleep = false ∧ p.length = c.window.wide * c.window.high then
        gramFill c.window p c.gram
      else gramForget c.window c.gram := by
  have hheld : ¬(c.windowStated = false ∨ c.window.wide * c.window.high < p.length) := by
    rintro (hstated | hlong)
    · exact Bool.noConfusion (hstated.symm.trans (windowStated_of_knownWindow h))
    · exact absurd hlong (Nat.not_lt.mpr hp)
  rw [gramAfterWrite]
  exact if_neg hheld

/-- Settles O58: whatever a memory write does to the window's bytes, it leaves the others. -/
theorem memoryWriteStaysInTheWindow : Obligations.MemoryWriteStaysInTheWindow := by
  intro s p hp
  refine ⟨gramAfterWrite s.ctrl p, exec_cmdWriteRam s hp, fun hwindow hlength a ha => ?_⟩
  rw [gramAfterWrite_eq hwindow hlength]
  split
  · exact gramRead_fill_outside _ hlength ha
  · rw [gramRead_forget, ha]
    rfl

/-- The controller right after a column window and a row window, and an exact fill of it. -/
theorem window_fill {s : State} {a b c d : Byte} {p : List Byte} (hawake : s.ctrl.regs.asleep = false) (ha : 28 ≤ a.toNat)
    (hab : a ≤ b) (hb : b.toNat ≤ 155) (hcd : c ≤ d) (hd : d.toNat ≤ 127)
    (hp : p.length = (⟨a, b, c, d⟩ : Window).wide * (⟨a, b, c, d⟩ : Window).high) :
    ∃ s₁ s₂ t, exec (.cmdSetCol a b) s = .next s₁ ∧ exec (.cmdSetRow c d) s₁ = .next s₂ ∧
      exec (.cmdWriteRam p) s₂ = .next t ∧ t = { s with ctrl := t.ctrl } ∧ t.ctrl.regs = s.ctrl.regs ∧
      t.ctrl.window = ⟨a, b, c, d⟩ ∧ t.ctrl.gram = gramFill ⟨a, b, c, d⟩ p s.ctrl.gram := by
  have hcols : a.toNat ≤ b.toNat := hab
  have hrows : c.toNat ≤ d.toNat := hcd
  have hp' : p ≠ [] := by
    refine List.ne_nil_of_length_pos (hp ▸ Nat.mul_pos ?_ ?_)
    · show 0 < b.toNat + 1 - a.toNat
      omega
    · show 0 < d.toNat + 1 - c.toNat
      omega
  refine ⟨_, _, _, exec_cmdSetCol s a b, exec_cmdSetRow _ c d, exec_cmdWriteRam _ hp', rfl, rfl, rfl, ?_⟩
  rw [ctrlStore_ctrl]
  exact (gramAfterWrite_eq ⟨ha, hab, hb, hcd, hd, rfl, rfl⟩ hp.le).trans (if_pos ⟨rfl, hawake, hp⟩)

/-- Settles O57: the fill of a fresh window. -/
theorem memoryWriteFillsTheWindow : Obligations.MemoryWriteFillsTheWindow := by
  intro s a b c d p hawake ha hab hb hcd hd hp
  obtain ⟨s₁, s₂, t, h₁, h₂, h₃, hframe, hregs, -, hgram⟩ := window_fill hawake ha hab hb hcd hd hp
  refine ⟨s₁, s₂, t, h₁, h₂, h₃, hframe, hregs, fun j hj => ?_, fun r k _ hk hout => ?_⟩
  · rw [hgram]
    exact gramRead_fill_inside (w := ⟨a, b, c, d⟩) s.ctrl.gram hp.le hj
  · rw [hgram]
    refine gramRead_fill_outside _ hp.le ?_
    rw [← Bool.not_eq_true, covers_gramKey hk]
    show ¬(c.toNat ≤ r ∧ r ≤ d.toNat ∧ a.toNat ≤ k ∧ k ≤ b.toNat)
    omega

/-! ### The events of the wire that no command describes -/

/-- A half of the window stands after a command that does not set it. -/
theorem ctrlUnknown_windowStands (code : Byte) (regs : Bool) (s : State) :
    (code ≠ Config.cmdCode .setCol →
      (ctrlUnknown (windowStands code regs) s).ctrl.window.colStart = s.ctrl.window.colStart ∧
        (ctrlUnknown (windowStands code regs) s).ctrl.window.colStop = s.ctrl.window.colStop) ∧
    (code ≠ Config.cmdCode .setRow →
      (ctrlUnknown (windowStands code regs) s).ctrl.window.rowStart = s.ctrl.window.rowStart ∧
        (ctrlUnknown (windowStands code regs) s).ctrl.window.rowStop = s.ctrl.window.rowStop) := by
  simp only [ctrlUnknown_window, windowStands, decide_eq_true_eq]
  exact ⟨fun h => ⟨if_pos h, if_pos h⟩, fun h => ⟨if_pos h, if_pos h⟩⟩

/-- A failed phase of one of FLUSH's commands, of a length the command has, leaves the registers. -/
theorem ctrlBroken_regs {code : Byte} {p : List Byte} (s : State) (hcode : isFlushCode code = true)
    (hp : p = [] ∨ ∃ i, decode (.command code p) = .ok i) : (ctrlBroken code p s).ctrl.regs = s.ctrl.regs := by
  have hlength : (p.isEmpty || (decode (.command code p)).isOk) = true := by
    obtain rfl | ⟨i, hi⟩ := hp
    · rfl
    · rw [hi]
      exact Bool.or_true _
  rw [ctrlBroken_eq, ctrlUnknown_regs, windowStands, hcode, hlength]
  rfl

/-- Settles O59: each event is one operation on CTRL, whose parts that stand it names. -/
theorem lineEventsTouchControllerOnly : Obligations.LineEventsTouchControllerOnly := by
  intro s b rest hwire hundecoded
  cases b
  case command code p =>
    cases hdecode : decode (.command code p) with
    | ok i => exact absurd hdecode (hundecoded code p i rfl)
    | error r =>
      refine ⟨_, step_of_undescribed hwire hdecode, rfl, ?_, nofun, nofun, nofun, nofun, nofun⟩
      rintro code' p' (h | h) <;> cases h
      exact ctrlUnknown_windowStands code false _
  case brokenPhase code p =>
    refine ⟨_, step_of_brokenPhase hwire, rfl, ?_, nofun, ?_, nofun, nofun, nofun⟩
    · rintro code' p' (h | h) <;> cases h
      exact ctrlUnknown_windowStands code _ _
    · rintro code' p' h hcode hp
      cases h
      refine ctrlBroken_regs _ ?_ hp
      simpa [isFlushCode, or_assoc] using hcode
  case resetPulse =>
    exact ⟨_, step_of_resetPulse hwire, rfl, fun _ _ h => by simp at h, nofun, nofun, nofun, nofun, nofun⟩
  case brokenFlush =>
    exact ⟨_, step_of_brokenFlush hwire, rfl, fun _ _ h => by simp at h, nofun, nofun, fun _ => rfl, nofun, nofun⟩
  case brokenProgram =>
    exact ⟨_, step_of_brokenProgram hwire, rfl, fun _ _ h => by simp at h, fun _ => rfl, nofun, nofun, nofun, nofun⟩
  case wrappedColumns =>
    exact ⟨_, step_of_wrappedColumns hwire, rfl, fun _ _ h => by simp at h, nofun, nofun, nofun, fun _ => rfl, nofun⟩
  case wrappedRows =>
    exact ⟨_, step_of_wrappedRows hwire, rfl, fun _ _ h => by simp at h, nofun, nofun, nofun, nofun, fun _ => rfl⟩

end Sys2Proof.Machine

/-! ### What CTRL does with what stands on the wire (20_memory.md R71, 43_framebuffer.md R180, R181)

CTRL takes one event of the wire in each step. `Takes l s t` says what it makes of the events of `l`, whatever stands behind
them; it composes along `++`, so that a run is put together from the stretches of the wire. -/

namespace Sys2Proof.Machine

theorem run_succ {s t : State} (h : step s = .next t) (n : Nat) :
    Host.Core.run core (n + 1) s = Host.Core.run core n t := by
  have hcore : core.step s = .next t := h
  simp only [Host.Core.run, hcore]

theorem CtrlOnly.refl (s : State) : CtrlOnly s s := ⟨rfl, id⟩

theorem CtrlOnly.trans {s t u : State} (h : CtrlOnly s t) (k : CtrlOnly t u) : CtrlOnly s u := by
  refine ⟨?_, fun hs => k.gram (h.gram hs)⟩
  rw [k.frame, h.frame]

/-- With the events of `l` first on the wire, CTRL brings `s` to `t`, the wires of both aside. -/
structure Takes (l : List BusEvent) (s t : State) : Prop where
  run : ∀ (n : Nat) (rest : List BusEvent), Host.Core.run core (l.length + n) { s with wire := l ++ rest } =
    Host.Core.run core n { t with wire := rest }
  only : CtrlOnly s t

namespace Takes

variable {l m : List BusEvent} {s t u : State}

theorem refl (s : State) : Takes [] s s := ⟨fun n _ => by rw [List.length_nil, Nat.zero_add, List.nil_append], .refl s⟩

theorem trans (h : Takes l s t) (k : Takes m t u) : Takes (l ++ m) s u := by
  refine ⟨fun n rest => ?_, h.only.trans k.only⟩
  rw [List.length_append, List.append_assoc, Nat.add_assoc, h.run, k.run]

/-- One event, from the step that takes it. -/
theorem single {b : BusEvent} (hstep : ∀ rest, step { s with wire := b :: rest } = .next { t with wire := rest })
    (honly : CtrlOnly s t) : Takes [b] s t := by
  refine ⟨fun n rest => ?_, honly⟩
  rw [List.length_singleton, Nat.add_comm, List.singleton_append, run_succ (hstep rest)]

/-- An event that leaves all of CTRL unknown but some parts. -/
theorem unknown {b : BusEvent} {k : Stands}
    (hstep : ∀ rest, step { s with wire := b :: rest } = .next (ctrlUnknown k { s with wire := rest })) :
    Takes [b] s (ctrlUnknown k s) := single hstep (ctrlUnknown_ctrlOnly k s)

/-- The whole wire. -/
theorem run_wire (h : Takes l s t) (hwire : s.wire = l) :
    Host.Core.run core l.length s = .next { t with wire := [] } := by
  have hrun := h.run 0 []
  rw [Nat.add_zero, List.append_nil, ← hwire] at hrun
  rw [← hwire]
  exact hrun

end Takes

/-- A command of the right length does not look at the wire. -/
theorem exec_command_wire {i : Instr} {s t : State} (hop : requestOp i = none) (hwf : i.wellFormed = true)
    (hnext : exec i s = .next t) (rest : List BusEvent) :
    exec i { s with wire := rest } = .next { t with wire := rest } := by
  cases i <;> cases hop
  case cmdEnh1 => cases (exec_cmdEnh1 s (eq_of_beq hwf)).symm.trans hnext; exact exec_cmdEnh1 _ (eq_of_beq hwf)
  case cmdEnh2 => cases (exec_cmdEnh2 s (eq_of_beq hwf)).symm.trans hnext; exact exec_cmdEnh2 _ (eq_of_beq hwf)
  case cmdRemap => cases (exec_cmdRemap s (eq_of_beq hwf)).symm.trans hnext; exact exec_cmdRemap _ (eq_of_beq hwf)
  case cmdGrayTable => cases (exec_cmdGrayTable s (eq_of_beq hwf)).symm.trans hnext; exact exec_cmdGrayTable _ (eq_of_beq hwf)
  case cmdWriteRam p =>
    have hp := (writeRam_wellFormed_iff p).mp hwf
    cases (exec_cmdWriteRam s hp).symm.trans hnext
    exact exec_cmdWriteRam _ hp
  all_goals
    cases hnext
    rfl

/-- The form of a command on the wire, and what the command does. -/
theorem Takes.command {i : Instr} {c : Byte × List Byte} {s t : State} (hform : encode i = .command c.1 c.2)
    (hwf : i.wellFormed = true) (hexec : exec i s = .next t) : Takes (sendsWire [c]) s t := by
  have hdecode : decode (.command c.1 c.2) = .ok i := hform ▸ decodeOfEncode i hwf
  have hop := requestOp_of_decode_command hdecode
  refine .single (fun rest => ?_) (exec_command_next hop hexec)
  exact (step_of_command rfl hdecode).trans (exec_command_wire hop hwf hexec rest)

/-! #### The full window -/

/-- The full window of `w` byte columns and `h` rows (42_window.md R166). -/
def fullWindow (w h : Nat) : Window := ⟨28, BitVec.ofNat 8 (27 + w), 0, BitVec.ofNat 8 (h - 1)⟩

/-- A position in row-major order. -/
theorem rowMajor_lt {w h r c : Nat} (hr : r < h) (hc : c < w) : r * w + c < w * h :=
  calc r * w + c < r * w + w := Nat.add_lt_add_left hc _
    _ = (r + 1) * w := (Nat.succ_mul r w).symm
    _ ≤ h * w := Nat.mul_le_mul_right w hr
    _ = w * h := Nat.mul_comm h w

section FullWindow

variable {w h : Nat} (hw : 1 ≤ w ∧ w ≤ 128) (hh : 1 ≤ h ∧ h ≤ 128)

include hw in
theorem fullWindow_colStop : (BitVec.ofNat 8 (27 + w)).toNat = 27 + w := by
  rw [BitVec.toNat_ofNat]
  omega

include hh in
theorem fullWindow_rowStop : (BitVec.ofNat 8 (h - 1)).toNat = h - 1 := by
  rw [BitVec.toNat_ofNat]
  omega

include hw in
theorem fullWindow_wide : (fullWindow w h).wide = w := by
  show (BitVec.ofNat 8 (27 + w)).toNat + 1 - 28 = w
  rw [fullWindow_colStop hw]
  omega

include hh in
theorem fullWindow_high : (fullWindow w h).high = h := by
  show (BitVec.ofNat 8 (h - 1)).toNat + 1 - 0 = h
  rw [fullWindow_rowStop hh]
  omega

include hw in
/-- The address of a byte of the full window. -/
theorem fillKey_fullWindow {r c : Nat} (hc : c < w) : fillKey (fullWindow w h) (r * w + c) = gramKey r (28 + c) := by
  have hpos : 0 < w := hw.1
  rw [fillKey, fullWindow_wide hw, Nat.add_comm (r * w), Nat.add_mul_div_right _ _ hpos, Nat.div_eq_of_lt hc,
    Nat.add_mul_mod_self_right, Nat.mod_eq_of_lt hc, Nat.zero_add]
  show gramKey (0 + r) (28 + c) = _
  rw [Nat.zero_add]

variable {p : List Byte} (cells : List Host.Cell) (hp : p.length = w * h)
include hw hh hp

/-- An exact fill of the full window puts the payload row by row. -/
theorem gramRead_full_inside {r c : Nat} (hr : r < h) (hc : c < w) :
    gramRead (gramKey r (28 + c)) (gramFill (fullWindow w h) p cells) = p[r * w + c]? := by
  have hindex : r * w + c < p.length := by
    rw [hp]
    exact rowMajor_lt hr hc
  rw [← fillKey_fullWindow (h := h) hw hc]
  refine gramRead_fill_inside cells ?_ hindex
  rw [fullWindow_wide hw, fullWindow_high hh, hp]

/-- It leaves every other address. -/
theorem gramRead_full_outside {a : Nat} (ha : ∀ r c, r < h → c < w → a ≠ gramKey r (28 + c)) :
    gramRead a (gramFill (fullWindow w h) p cells) = gramRead a cells := by
  refine gramRead_fill_outside cells (by rw [fullWindow_wide hw, fullWindow_high hh, hp]) ?_
  rw [← Bool.not_eq_true]
  intro hcovers
  have hkey : a = gramKey (a / 256) (a % 256) := by
    rw [gramKey]
    omega
  rw [hkey, covers_gramKey (Nat.mod_lt _ (by decide))] at hcovers
  obtain ⟨-, hrow, hcol, hcol'⟩ := hcovers
  have hrow : a / 256 ≤ h - 1 := fullWindow_rowStop hh ▸ hrow
  have hcol : 28 ≤ a % 256 := hcol
  have hcol' : a % 256 ≤ 27 + w := fullWindow_colStop hw ▸ hcol'
  refine ha (a / 256) (a % 256 - 28) (by omega) (by omega) ?_
  rw [Nat.add_sub_cancel' hcol]
  exact hkey

/-- What an awake CTRL makes of the three commands of a FLUSH. -/
theorem takes_fill {s : State} (hawake : s.ctrl.regs.asleep = false) :
    ∃ t, Takes (sendsWire [(Config.cmdCode .setCol, [28, BitVec.ofNat 8 (27 + w)]),
        (Config.cmdCode .setRow, [0, BitVec.ofNat 8 (h - 1)]), (Config.cmdCode .writeRam, p)]) s t ∧
      t.ctrl.regs = s.ctrl.regs ∧ t.ctrl.window = fullWindow w h ∧
      t.ctrl.gram = gramFill (fullWindow w h) p s.ctrl.gram := by
  have hcolStop := fullWindow_colStop hw
  have hrowStop := fullWindow_rowStop hh
  have hexact : p.length = (fullWindow w h).wide * (fullWindow w h).high := by
    rw [fullWindow_wide hw, fullWindow_high hh, hp]
  have hfilled : p ≠ [] := List.ne_nil_of_length_pos (hp ▸ Nat.mul_pos hw.1 hh.1)
  have hcols : (28 : Byte) ≤ BitVec.ofNat 8 (27 + w) := by
    rw [BitVec.le_def, hcolStop]
    show 28 ≤ 27 + w
    omega
  obtain ⟨s₁, s₂, t, h₁, h₂, h₃, -, hregs, hwindow, hgram⟩ := window_fill hawake (by decide) hcols
    (by omega) (Nat.zero_le _) (by omega) hexact
  refine ⟨t, ?_, hregs, hwindow, hgram⟩
  have hwf := (writeRam_wellFormed_iff p).mpr hfilled
  exact ((Takes.command rfl rfl h₁).trans (Takes.command rfl rfl h₂)).trans (Takes.command rfl hwf h₃)

end FullWindow

/-! #### FLUSH -/

theorem GeometryCoherent.fbPayload_exact {s : State} (hg : GeometryCoherent s) :
    (fbPayload s).length = s.pw.toNat * s.resY.toNat := (fbPayload_length s).trans hg.bsz_eq

/-- The full window filled with the buffer reads as the buffer. -/
theorem GeometryCoherent.gramRead_flushed {s : State} (hg : GeometryCoherent s) (cells : List Host.Cell) {r c : Nat}
    (hr : r < s.resY.toNat) (hc : c < s.pw.toNat) :
    gramRead (gramKey r (28 + c)) (gramFill (fullWindow s.pw.toNat s.resY.toNat) (fbPayload s) cells) =
      readFb s (r * s.pw.toNat + c) := by
  obtain ⟨hw, hw', hh, hh'⟩ := hg.range
  have hindex : r * s.pw.toNat + c < s.bsz.toNat := by
    rw [hg.bsz_eq]
    exact rowMajor_lt hr hc
  obtain ⟨b, hb⟩ := Option.isSome_iff_exists.mp ((readFb_isSome_iff s _).mpr (hg.fbSize_eq_bsz ▸ hindex))
  rw [gramRead_full_inside ⟨hw, hw'⟩ ⟨hh, hh'⟩ cells hg.fbPayload_exact hr hc, fbPayload, List.getElem?_map,
    List.getElem?_range hindex, Option.map_some, hb, Option.getD_some]

/-- FLUSH and the three steps in which an awake CTRL takes what it sent. -/
theorem flush_reaches {s : State} (hs : Ready s) (hok : transportOk 6 s = true) (hwire : s.wire = [])
    (hawake : s.ctrl.regs.asleep = false) :
    ∃ t u, exec .flush s = .next t ∧ t.result = .ok ∧ Host.Core.run core 3 t = .next u ∧
      u = { t with wire := [], ctrl := u.ctrl, freeCount := u.freeCount } ∧ u.ctrl.regs = s.ctrl.regs ∧
      u.ctrl.window = fullWindow s.pw.toNat s.resY.toNat ∧
      u.ctrl.gram = gramFill (fullWindow s.pw.toNat s.resY.toNat) (fbPayload s) s.ctrl.gram := by
  have hg := hs.geometryCoherent
  obtain ⟨hw, hw', hh, hh'⟩ := hg.range
  have hflush := flushSendsTheBuffer s hs hok
  rw [hwire, List.nil_append] at hflush
  obtain ⟨u, htakes, hregs, hwindow, hgram⟩ := takes_fill ⟨hw, hw'⟩ ⟨hh, hh'⟩ hg.fbPayload_exact (s := { s with
    dc := .data, cs := .deasserted
    trace := s.trace ++
      [.tx false [Config.cmdCode .setCol], .tx true [28, BitVec.ofNat 8 (27 + s.pw.toNat)],
       .tx false [Config.cmdCode .setRow], .tx true [0, BitVec.ofNat 8 (s.resY.toNat - 1)],
       .tx false [Config.cmdCode .writeRam], .tx true (fbPayload s)]
    wire := sendsWire (flushSends s)
    env := { s.env with transmit := s.env.transmit.drop 6 }
    result := .ok }) hawake
  refine ⟨_, { u with wire := [] }, hflush, rfl, htakes.run_wire rfl, ?_, hregs, hwindow, hgram⟩
  rw [htakes.only.frame]

/-- Settles O34: the controller's memory is the full window filled with the buffer. -/
theorem flushReachesController : Obligations.FlushReachesController := by
  intro s hs hok hwire hawake
  have hg := hs.geometryCoherent
  obtain ⟨hw, hw', hh, hh'⟩ := hg.range
  obtain ⟨t, u, hflush, -, hrun, hframe, hregs, -, hgram⟩ := flush_reaches hs hok hwire hawake
  refine ⟨t, u, hflush, hrun, hframe, hregs, fun r c hr hc => ?inside, fun a ha => ?outside⟩
  case inside => rw [hgram, hg.gramRead_flushed _ hr hc]
  case outside =>
    rw [hgram]
    exact gramRead_full_outside ⟨hw, hw'⟩ ⟨hh, hh'⟩ _ hg.fbPayload_exact ha

/-! #### A FLUSH that failed -/

/-- CTRL can take the events, and its registers stand over them. -/
def KeepsRegs (l : List BusEvent) : Prop := ∀ s, ∃ t, Takes l s t ∧ t.ctrl.regs = s.ctrl.regs

theorem KeepsRegs.append {l m : List BusEvent} (h : KeepsRegs l) (k : KeepsRegs m) : KeepsRegs (l ++ m) := by
  intro s
  obtain ⟨t, ht, hregs⟩ := h s
  obtain ⟨u, hu, hregs'⟩ := k t
  exact ⟨u, ht.trans hu, hregs'.trans hregs⟩

theorem KeepsRegs.of_forall {l : List BusEvent} (h : ∀ b ∈ l, KeepsRegs [b]) : KeepsRegs l := by
  induction l with
  | nil => exact fun s => ⟨s, .refl s, rfl⟩
  | cons b l ih => exact (h b List.mem_cons_self).append (ih fun c hc => h c (List.mem_cons_of_mem _ hc))

/-- The three calls of a FLUSH: described commands that leave the registers. -/
theorem flushSends_described {s : State} (hg : GeometryCoherent s) {c : Byte × List Byte} (hc : c ∈ flushSends s) :
    isFlushCode c.1 = true ∧ ∃ i, encode i = .command c.1 c.2 ∧ i.wellFormed = true ∧
      ∀ t, ∃ u, exec i t = .next u ∧ u.ctrl.regs = t.ctrl.regs := by
  have hfilled := hg.fbPayload_ne_nil
  rw [flushSends, List.mem_cons, List.mem_cons, List.mem_singleton] at hc
  obtain rfl | rfl | rfl := hc
  · exact ⟨rfl, .cmdSetCol .., rfl, rfl, fun t => ⟨_, exec_cmdSetCol t .., rfl⟩⟩
  · exact ⟨rfl, .cmdSetRow .., rfl, rfl, fun t => ⟨_, exec_cmdSetRow t .., rfl⟩⟩
  · have hwf := (writeRam_wellFormed_iff _).mpr hfilled
    exact ⟨rfl, .cmdWriteRam _, rfl, hwf, fun t => ⟨_, exec_cmdWriteRam t hfilled, rfl⟩⟩

/-- What a phase reports is one of the calls. -/
theorem sendsPhases_call {l : List (Byte × List Byte)} {k done : Nat} {ph : Phase} {code : Byte}
    (h : (sendsPhases l)[k]? = some (done, ph, code)) : ∃ c, l[done]? = some c := by
  rw [sendsPhases_eq] at h
  obtain ⟨⟨c, i⟩, hc, hmem⟩ := List.mem_flatMap.mp (List.mem_of_getElem? h)
  have hdone : done = i := by
    simp only [callPhases] at hmem
    split at hmem <;> simp at hmem <;> omega
  rw [hdone]
  exact ⟨c, List.mem_zipIdx_iff_getElem?.mp hc⟩

/-- What a FLUSH that failed has put on the wire: as many events as calls completed and two more, and the registers stand
over each. -/
theorem brokenFlush_keepsRegs {s : State} (hg : GeometryCoherent s) {k done : Nat} {ph : Phase} {code : Byte}
    (hphase : (sendsPhases (flushSends s))[k]? = some (done, ph, code)) :
    (sendsWire ((flushSends s).take done) ++ brokenAfter (flushSends s) done ph ++ [BusEvent.brokenFlush]).length = done + 2 ∧
      KeepsRegs (sendsWire ((flushSends s).take done) ++ brokenAfter (flushSends s) done ph ++ [.brokenFlush]) := by
  obtain ⟨c, hc⟩ := sendsPhases_call hphase
  obtain ⟨hlt, -⟩ := List.getElem?_eq_some_iff.mp hc
  have hbroken : brokenAfter (flushSends s) done ph = [.brokenPhase c.1 (if ph = .payload then c.2 else [])] := by
    rw [brokenAfter, hc]
    rfl
  rw [hbroken]
  refine ⟨?length, (KeepsRegs.append (.of_forall fun b hb => ?sent) fun t => ?phase).append fun t => ?mark⟩
  case length => simp [sendsWire, Nat.min_eq_left hlt.le]
  case sent =>
    obtain ⟨c, hc, rfl⟩ := List.mem_map.mp hb
    obtain ⟨-, i, hform, hwf, hexec⟩ := flushSends_described hg (List.mem_of_mem_take hc)
    intro t
    obtain ⟨u, hu, hregs⟩ := hexec t
    exact ⟨u, .command hform hwf hu, hregs⟩
  case phase =>
    obtain ⟨hcode, i, hform, hwf, -⟩ := flushSends_described hg (List.mem_of_getElem? hc)
    refine ⟨_, .unknown fun rest => step_of_brokenPhase rfl, ctrlBroken_regs t hcode ?_⟩
    split
    · exact .inr ⟨i, hform ▸ decodeOfEncode i hwf⟩
    · exact .inl rfl
  case mark => exact ⟨_, .unknown fun rest => step_of_brokenFlush rfl, rfl⟩

/-- FLUSH leaves a ready state ready. -/
theorem Ready.of_flush {s t : State} (hs : Ready s) (hnext : exec .flush s = .next t) : Ready t := by
  obtain ⟨hlife, hcoherent⟩ := hs
  obtain ⟨u, hends, hfinished⟩ := exec_request_next rfl hnext
  refine ⟨?_, (hends.coherent hcoherent).of_finished hfinished⟩
  rw [hfinished.frame]
  cases hends with
  | body h => exact h.life.trans hlife

theorem Ready.of_ctrlOnly {s t : State} (hs : Ready s) (h : CtrlOnly s t) : Ready t := by
  obtain ⟨hlife, hcoherent⟩ := hs
  refine ⟨?_, hcoherent.of_ctrlOnly h⟩
  rw [h.frame]
  exact hlife

/-- Settles O60: the registers stand over what the failed FLUSH sent, so that the second one reaches an awake controller. -/
theorem flushRepairsTheController : Obligations.FlushRepairsTheController := by
  intro s k done ph code rest hs hwire hawake hphase hscript hrest
  obtain ⟨hlength, hkeeps⟩ := brokenFlush_keepsRegs hs.geometryCoherent hphase
  have hfails := flushEndsAtFailure s k done ph code rest hs hphase hscript
  rw [hwire, List.nil_append] at hfails
  obtain ⟨u, htakes, hregs⟩ := hkeeps _
  have hu := (hs.of_flush hfails).of_ctrlOnly htakes.only
  have hframe := htakes.only.frame
  obtain ⟨v, w, hflush, hresult, hrun, hwframe, hwregs, hwindow, hgram⟩ :=
    flush_reaches (s := { u with wire := [] }) hu (by rw [hframe]; exact (transportOk_iff ..).mpr hrest) rfl
      ((congrArg CtrlRegs.asleep hregs).trans hawake)
  refine ⟨_, { u with wire := [] }, v, w, hfails, rfl, hlength ▸ htakes.run_wire rfl, rfl, hflush, hresult, hrun,
    by rw [hwframe], hwregs.trans hregs, ?window, fun r c hr hc => ?memory⟩
  case window =>
    rw [hwindow, hframe]
    rfl
  case memory =>
    have hread := (Ready.geometryCoherent hu).gramRead_flushed u.ctrl.gram (r := r) (c := c)
    rw [hframe] at hread
    rw [hgram, hframe]
    exact hread hr hc

/-! #### INIT -/

/-- Commands that an asleep, or an awake, CTRL takes into its registers: into what they hold on waking too while it sleeps, and
leaving the sleep as it is. -/
def Sets (asleep : Bool) (cs : List (Byte × List Byte)) (f : CtrlRegs → CtrlRegs) : Prop :=
  ∀ s : State, s.ctrl.regs.asleep = asleep → ∃ t, Takes (sendsWire cs) s t ∧ t.ctrl.regs = f s.ctrl.regs ∧
    t.ctrl.regs.asleep = asleep ∧ (asleep = true → t.ctrl.onWaking = f s.ctrl.onWaking)

theorem Sets.append {a : Bool} {cs ds : List (Byte × List Byte)} {f g : CtrlRegs → CtrlRegs} (h : Sets a cs f)
    (k : Sets a ds g) : Sets a (cs ++ ds) (fun r => g (f r)) := by
  intro s hs
  obtain ⟨t, ht, hregs, hasleep, hwaking⟩ := h s hs
  obtain ⟨u, hu, hregs', hasleep', hwaking'⟩ := k t hasleep
  refine ⟨u, ?_, hregs'.trans (congrArg g hregs), hasleep', fun ha => (hwaking' ha).trans (congrArg g (hwaking ha))⟩
  rw [sendsWire, List.map_append]
  exact ht.trans hu

section Single

variable {α : Type} {v : α} {read : CtrlRegs → α} {set : α → CtrlRegs → CtrlRegs} {i : Instr} {code : Byte} {p : List Byte}

theorem Sets.configure (hexec : ∀ s, exec i s = .next (ctrlConfigure v read set s)) (hwf : i.wellFormed = true)
    (hset : ∀ r, (set v r).asleep = r.asleep) (hform : encode i = .command code p) : Sets true [(code, p)] (set v) := by
  intro s hs
  have hconfigured := (hexec s).trans (congrArg _ (ctrlConfigure_asleep v read set hs))
  exact ⟨_, .command (c := (code, p)) hform hwf hconfigured, rfl, (hset _).trans hs, fun _ => rfl⟩

theorem Sets.adjust (hexec : ∀ s, exec i s = .next (ctrlAdjust v read set s)) (hwf : i.wellFormed = true)
    (hset : ∀ r, (set v r).asleep = r.asleep) (hform : encode i = .command code p) : Sets false [(code, p)] (set v) := by
  intro s hs
  have hadjusted := (hexec s).trans (congrArg _ (ctrlAdjust_awake v read set hs))
  exact ⟨_, .command (c := (code, p)) hform hwf hadjusted, rfl, (hset _).trans hs, nofun⟩

theorem Sets.columns (a b : Byte) : Sets true [(Config.cmdCode .setCol, [a, b])] id :=
  fun s hs => ⟨_, .command rfl rfl (exec_cmdSetCol s a b), rfl, hs, fun _ => rfl⟩

theorem Sets.rows (a b : Byte) : Sets true [(Config.cmdCode .setRow, [a, b])] id :=
  fun s hs => ⟨_, .command rfl rfl (exec_cmdSetRow s a b), rfl, hs, fun _ => rfl⟩

end Single

/-- Steps 3 to 6 of the init program. -/
theorem initProgram_configures (x y : Nat) : Sets true (((initSends x y).drop 2).take 14) fun r => { r with
    clock := Config.kClock, funcsel := Config.kFuncsel, prechargeV := Config.kPrechargeV
    precharge2 := Config.kPrecharge2, vcomh := Config.kVcomh, enh1 := Config.kEnh1, enh2 := Config.kEnh2
    mux := BitVec.ofNat 8 (y - 1), partialMode := false, offset := 0, startline := 0, remap := Config.kRemap } := by
  exact (Sets.configure (exec_cmdClock · Config.kClock) rfl (fun _ => rfl) rfl).append <|
    (Sets.configure (exec_cmdFuncsel · Config.kFuncsel) rfl (fun _ => rfl) rfl).append <|
    (Sets.configure (exec_cmdPrechargeV · Config.kPrechargeV) rfl (fun _ => rfl) rfl).append <|
    (Sets.configure (exec_cmdPrecharge2 · Config.kPrecharge2) rfl (fun _ => rfl) rfl).append <|
    (Sets.configure (exec_cmdVcomh · Config.kVcomh) rfl (fun _ => rfl) rfl).append <|
    (Sets.configure (exec_cmdEnh1 (p := Config.kEnh1) · rfl) rfl (fun _ => rfl) rfl).append <|
    (Sets.configure (exec_cmdEnh2 (p := Config.kEnh2) · rfl) rfl (fun _ => rfl) rfl).append <|
    (Sets.configure (exec_cmdMux · (BitVec.ofNat 8 (y - 1))) rfl (fun _ => rfl) rfl).append <|
    (Sets.configure exec_cmdExitPartial rfl (fun _ => rfl) rfl).append <|
    (Sets.columns 28 (BitVec.ofNat 8 (27 + (x + 1) / 2))).append <|
    (Sets.rows 0 (BitVec.ofNat 8 (y - 1))).append <|
    (Sets.configure (exec_cmdOffset · 0) rfl (fun _ => rfl) rfl).append <|
    (Sets.configure (exec_cmdStartline · 0) rfl (fun _ => rfl) rfl).append <|
    (Sets.configure (exec_cmdRemap (p := Config.kRemap) · rfl) rfl (fun _ => rfl) rfl)

/-- Steps 8 to 10 of the init program. -/
theorem initProgram_adjusts (x y : Nat) : Sets false (((initSends x y).drop 17).take 3) fun r => { r with
    gray := .default, contrast := Config.kContrastDefault, brightness := Config.kBrightnessDefault &&& 0x0F } :=
  (Sets.adjust exec_cmdGrayDefault rfl (fun _ => rfl) rfl).append <|
    (Sets.adjust (exec_cmdContrast · Config.kContrastDefault) rfl (fun _ => rfl) rfl).append <|
    (Sets.adjust (exec_cmdBrightness · (Config.kBrightnessDefault &&& 0x0F)) rfl (fun _ => rfl) rfl)

/-- The reset pulse and steps 1 and 2 of the init program: the lock open, CTRL asleep. -/
theorem takes_unlock_sleep (s : State) :
    ∃ t, Takes (.resetPulse :: sendsWire [(Config.cmdCode .unlock, [Config.kUnlock]), (Config.cmdCode .sleepOn, [])]) s t ∧
      t.ctrl.regs.unlock = Config.kUnlock ∧ t.ctrl.regs.asleep = true := by
  have hpulse : Takes [.resetPulse] s (ctrlLost s) := .unknown fun _ => step_of_resetPulse rfl
  have hunlock := Takes.command (c := (Config.cmdCode .unlock, [Config.kUnlock])) rfl rfl (exec_cmdUnlock (ctrlLost s) _)
  exact ⟨_, (hpulse.trans hunlock).trans (.command (c := (Config.cmdCode .sleepOn, [])) rfl rfl (exec_cmdSleepOn _)), rfl, rfl⟩

/-- CTRL awake, as the init program has configured it in its sleep (70_reset_and_hazards.md R263). -/
theorem takes_initSleep (x y : Nat) (s : State) :
    ∃ t, Takes (.resetPulse :: sendsWire ((initSends x y).take 17)) s t ∧ t.ctrl.regs = { t.ctrl.regs with
      unlock := Config.kUnlock, clock := Config.kClock, funcsel := Config.kFuncsel
      prechargeV := Config.kPrechargeV, precharge2 := Config.kPrecharge2, vcomh := Config.kVcomh
      enh1 := Config.kEnh1, enh2 := Config.kEnh2, mux := BitVec.ofNat 8 (y - 1)
      offset := 0, startline := 0, remap := Config.kRemap, partialMode := false, asleep := false } := by
  obtain ⟨t, ht, hunlock, hasleep⟩ := takes_unlock_sleep s
  obtain ⟨u, hu, hregs, hasleep, hwaking⟩ := initProgram_configures x y t hasleep
  have hwake := Takes.command (c := (Config.cmdCode .sleepOff, [])) rfl rfl (exec_cmdSleepOff u)
  refine ⟨_, (ht.trans hu).trans hwake, ?_⟩
  rw [ctrlWake_regs, hasleep, if_pos rfl, hwaking rfl, hregs, hunlock]

/-- Settles O48: the wire in four stretches, up to the waking, the display's registers, the clear, and NORMAL. -/
theorem initConfiguresController : Obligations.InitConfiguresController := by
  intro s tr p x y hmay hallocate hattach hok hwire
  obtain ⟨-, hx, hx', hy, hy'⟩ := id hmay
  have hw : 1 ≤ (x.toNat + 1) / 2 ∧ (x.toNat + 1) / 2 ≤ 128 := by omega
  obtain ⟨t, hinit, hframe, -⟩ := initConstructs s tr p x y hmay hallocate hattach hok
  have hwire' : t.wire = .resetPulse :: sendsWire (initSends x.toNat y.toNat) := by
    rw [hframe, hwire]
    rfl
  obtain ⟨t₁, htakes₁, hregs₁⟩ := takes_initSleep x.toNat y.toNat t
  obtain ⟨t₂, htakes₂, hregs₂, hawake, -⟩ := initProgram_adjusts x.toNat y.toNat t₁ (by rw [hregs₁])
  obtain ⟨t₃, htakes₃, hregs₃, hwindow, hgram⟩ :=
    takes_fill hw ⟨hy, hy'⟩ (List.length_replicate (a := (0 : Byte)) (n := (x.toNat + 1) / 2 * y.toNat)) hawake
  have hawake₃ : t₃.ctrl.regs.asleep = false := (congrArg CtrlRegs.asleep hregs₃).trans hawake
  have htakes₄ := Takes.command (c := (Config.cmdCode .normal, [])) rfl rfl
    ((exec_cmdNormal t₃).trans (congrArg _ (ctrlAdjust_awake _ _ _ hawake₃)))
  have htakes := ((htakes₁.trans htakes₂).trans htakes₃).trans htakes₄
  refine ⟨t, _, hinit, htakes.run_wire hwire', ?frame, ?regs, hwindow, fun r c hr hc => ?memory⟩
  case frame => rw [htakes.only.frame]
  case regs =>
    show { t₃.ctrl.regs with mode := .normal } = _
    rw [hregs₃, hregs₂, hregs₁]
  case memory =>
    show gramRead _ t₃.ctrl.gram = _
    rw [hgram, gramRead_full_inside hw ⟨hy, hy'⟩ _ List.length_replicate hr hc, List.getElem?_replicate,
      if_pos (rowMajor_lt hr hc)]

end Sys2Proof.Machine
